-- ==== Sys2Proof/Word.lean ====
section
/-! DEFINITION. The word types of the machine: bytes, the unit of every memory, and the 64-bit
words of the registers (spec 00_scope.md R8; 10_state.md R22, R24, R25). -/

namespace Sys2Proof

/-- A byte: 8 bits (00_scope.md R8). -/
abbrev Byte := BitVec 8

/-- A word of `XLEN` = 64 bits, the width of `pc`, `sp`, `fp` (00_scope.md R6, `XLEN`). -/
abbrev Word := BitVec 64

end Sys2Proof
end

