-- ==== Sys2Proof/Config.lean ====
section
/-! DEFINITION. What an instance of the machine fixes and what the spec leaves free
(spec 00_scope.md R6; 92_eei_decisions.md, the list of OPEN parameters).

The parameter `FNUM` is `Config.fnum`. The OPEN parameters with a default (`SDIV_OVF`, `OPMAP`) and the capacities stand in `State`
(`Machine.Params`), so that a statement about every state holds for every value of them. The
draws (00_scope.md R15: "a value the rules leave free; a model must hold for every value of it")
are the opaque constants below: nothing in Lean can evaluate them. Each takes the number of the
draw, a counter that `State` holds, so that two draws need not agree. -/

namespace Sys2Proof

/-- The values of the parameter `SDIV_OVF`: what signed DIV and MOD do on -2^(W-1) / -1
(41_arithmetic.md R134). -/
inductive SdivOvf where
  /-- The default: DIV gives -2^(W-1), MOD gives 0. -/
  | wrap
  /-- DIV and MOD raise `DivisionByZero`. -/
  | fault
deriving DecidableEq, Repr

/-- `STACK_INIT` (00_scope.md R6; 10_state.md R40): the byte of the stack at an index, in one life of
the stack's contents. A free value, log 5. -/
opaque Config.stackInit : Nat → Nat → Byte

/-- `STORE_INIT` (00_scope.md R6; 70_reset_and_hazards.md R461): the byte of the store at an address, in one
life of the store. A free value, log 5. -/
opaque Config.storeInit : Nat → Nat → Byte

/-- The operations of `FNUM` (40_primitives.md R118): `fadd`, `fsub`, `fmul`, `fdiv`. -/
inductive FloatOp where
  | add
  | sub
  | mul
  | div
deriving DecidableEq, Repr

/-- `FNUM` (00_scope.md R6; 40_primitives.md R118): of an operation, a width W, the number of a draw and two W-bit
patterns, a W-bit pattern. Uninterpreted: what R118 states of it is imposed by `Machine.fnum`, which leaves it the
choice of a NaN and nothing else. A free value, log 4. -/
opaque Config.fnum : FloatOp → (w : Nat) → Nat → BitVec w → BitVec w → BitVec w

/-- `pc` after a fault (60_exceptions.md R431: unspecified). A free value, log 6. -/
opaque Config.faultPc : Nat → Word

/-- `sp` after a fault (60_exceptions.md R431: unspecified). A free value, log 6. -/
opaque Config.faultSp : Nat → Word

/-- `fp` after a fault (60_exceptions.md R431: unspecified). A free value, log 6. -/
opaque Config.faultFp : Nat → Word

/-- `STACK_CAP` in `State.reset` (DESIGN CHOICE, log 7): the capacity the spec's test vectors take
(95_test_vectors.md, opening paragraph). -/
def Config.resetStackCap : Nat := 64

/-- `STORE_CAP` in `State.reset` (DESIGN CHOICE, log 7), as `Config.resetStackCap`. -/
def Config.resetStoreCap : Nat := 16

end Sys2Proof
end

