-- ==== Sys2Proof/Machine/Codec.lean ====
section
/-! DEFINITION. The codec unit and the byte order of the machine: a value of W bits as W/8 bytes,
most significant first (spec 40_primitives.md R100 to R103; 20_memory.md R52, R54). -/

namespace Sys2Proof.Machine

/-- The bytes of a W-bit value in push order, `v[8i+7:8i]` for i = W/8-1 down to 0: most
significant first (40_primitives.md R106; 20_memory.md R52). -/
def bytesOf {w : Nat} (v : BitVec w) : List Byte :=
  (List.range (w / 8)).reverse.map fun i => v.extractLsb' (8 * i) 8

/-- The W-bit value of a list of bytes in stack-index order, the first byte most significant
(40_primitives.md R107; 30_encoding.md R83). -/
def ofBytes (w : Nat) (bs : List Byte) : BitVec w :=
  BitVec.ofNat w (bs.foldl (fun acc b => 256 * acc + b.toNat) 0)

/-- `ser32` (40_primitives.md R100). -/
def ser32 (x : BitVec 32) : List Byte :=
  [x.extractLsb' 24 8, x.extractLsb' 16 8, x.extractLsb' 8 8, x.extractLsb' 0 8]

/-- `deser32` (40_primitives.md R101). -/
def deser32 (b0 b1 b2 b3 : Byte) : BitVec 32 := b0 ++ b1 ++ b2 ++ b3

/-- `ser64` (40_primitives.md R102). -/
def ser64 (x : BitVec 64) : List Byte :=
  [x.extractLsb' 56 8, x.extractLsb' 48 8, x.extractLsb' 40 8, x.extractLsb' 32 8,
   x.extractLsb' 24 8, x.extractLsb' 16 8, x.extractLsb' 8 8, x.extractLsb' 0 8]

/-- `deser64` (40_primitives.md R103). -/
def deser64 (b0 b1 b2 b3 b4 b5 b6 b7 : Byte) : BitVec 64 :=
  b0 ++ b1 ++ b2 ++ b3 ++ b4 ++ b5 ++ b6 ++ b7

end Sys2Proof.Machine
end

