-- ==== Sys2Proof/Syntax.lean ====
section
/-! DEFINITION. The instruction set: one constructor for each of the 172 instructions (spec 30_encoding.md R86), in
the order of spec/opcode_table.json. Only the four `PUSH_u*` carry an operand, the immediate as the W-bit
value its bytes spell, first byte most significant (30_encoding.md R83); every other operand comes from the stack
(30_encoding.md R80). Each docstring gives the mnemonic and the rule of its meaning. -/

namespace Sys2Proof

/-- An instruction of SVM-DE/172. -/
inductive Instr where
  -- Arithmetic (41_arithmetic.md)
  /-- `ADD_u8` (R140). -/
  | addU8
  /-- `ADD_i8` (R141). -/
  | addI8
  /-- `ADD_u16` (R142). -/
  | addU16
  /-- `ADD_i16` (R143). -/
  | addI16
  /-- `ADD_u32` (R144). -/
  | addU32
  /-- `ADD_i32` (R145). -/
  | addI32
  /-- `ADD_u64` (R146). -/
  | addU64
  /-- `ADD_i64` (R147). -/
  | addI64
  /-- `ADD_f` (R148). -/
  | addF
  /-- `ADD_d` (R149). -/
  | addD
  /-- `SUB_u8` (R150). -/
  | subU8
  /-- `SUB_i8` (R151). -/
  | subI8
  /-- `SUB_u16` (R152). -/
  | subU16
  /-- `SUB_i16` (R153). -/
  | subI16
  /-- `SUB_u32` (R154). -/
  | subU32
  /-- `SUB_i32` (R155). -/
  | subI32
  /-- `SUB_u64` (R156). -/
  | subU64
  /-- `SUB_i64` (R157). -/
  | subI64
  /-- `SUB_f` (R158). -/
  | subF
  /-- `SUB_d` (R159). -/
  | subD
  /-- `MUL_u8` (R160). -/
  | mulU8
  /-- `MUL_i8` (R161). -/
  | mulI8
  /-- `MUL_u16` (R162). -/
  | mulU16
  /-- `MUL_i16` (R163). -/
  | mulI16
  /-- `MUL_u32` (R164). -/
  | mulU32
  /-- `MUL_i32` (R165). -/
  | mulI32
  /-- `MUL_u64` (R166). -/
  | mulU64
  /-- `MUL_i64` (R167). -/
  | mulI64
  /-- `MUL_f` (R168). -/
  | mulF
  /-- `MUL_d` (R169). -/
  | mulD
  /-- `DIV_u8` (R170). -/
  | divU8
  /-- `DIV_i8` (R171). -/
  | divI8
  /-- `DIV_u16` (R172). -/
  | divU16
  /-- `DIV_i16` (R173). -/
  | divI16
  /-- `DIV_u32` (R174). -/
  | divU32
  /-- `DIV_i32` (R175). -/
  | divI32
  /-- `DIV_u64` (R176). -/
  | divU64
  /-- `DIV_i64` (R177). -/
  | divI64
  /-- `DIV_f` (R178). -/
  | divF
  /-- `DIV_d` (R179). -/
  | divD
  /-- `MOD_u8` (R180). -/
  | modU8
  /-- `MOD_i8` (R181). -/
  | modI8
  /-- `MOD_u16` (R182). -/
  | modU16
  /-- `MOD_i16` (R183). -/
  | modI16
  /-- `MOD_u32` (R184). -/
  | modU32
  /-- `MOD_i32` (R185). -/
  | modI32
  /-- `MOD_u64` (R186). -/
  | modU64
  /-- `MOD_i64` (R187). -/
  | modI64
  -- Comparison (42_comparison.md)
  /-- `EQ_u8` (R210). -/
  | eqU8
  /-- `EQ_i8` (R211). -/
  | eqI8
  /-- `EQ_u16` (R212). -/
  | eqU16
  /-- `EQ_i16` (R213). -/
  | eqI16
  /-- `EQ_u32` (R214). -/
  | eqU32
  /-- `EQ_i32` (R215). -/
  | eqI32
  /-- `EQ_u64` (R216). -/
  | eqU64
  /-- `EQ_i64` (R217). -/
  | eqI64
  /-- `EQ_f` (R218). -/
  | eqF
  /-- `EQ_d` (R219). -/
  | eqD
  /-- `NEQ_u8` (R220). -/
  | neqU8
  /-- `NEQ_i8` (R221). -/
  | neqI8
  /-- `NEQ_u16` (R222). -/
  | neqU16
  /-- `NEQ_i16` (R223). -/
  | neqI16
  /-- `NEQ_u32` (R224). -/
  | neqU32
  /-- `NEQ_i32` (R225). -/
  | neqI32
  /-- `NEQ_u64` (R226). -/
  | neqU64
  /-- `NEQ_i64` (R227). -/
  | neqI64
  /-- `NEQ_f` (R228). -/
  | neqF
  /-- `NEQ_d` (R229). -/
  | neqD
  /-- `LT_u8` (R230). -/
  | ltU8
  /-- `LT_i8` (R231). -/
  | ltI8
  /-- `LT_u16` (R232). -/
  | ltU16
  /-- `LT_i16` (R233). -/
  | ltI16
  /-- `LT_u32` (R234). -/
  | ltU32
  /-- `LT_i32` (R235). -/
  | ltI32
  /-- `LT_u64` (R236). -/
  | ltU64
  /-- `LT_i64` (R237). -/
  | ltI64
  /-- `LT_f` (R238). -/
  | ltF
  /-- `LT_d` (R239). -/
  | ltD
  /-- `LTEQ_u8` (R240). -/
  | lteqU8
  /-- `LTEQ_i8` (R241). -/
  | lteqI8
  /-- `LTEQ_u16` (R242). -/
  | lteqU16
  /-- `LTEQ_i16` (R243). -/
  | lteqI16
  /-- `LTEQ_u32` (R244). -/
  | lteqU32
  /-- `LTEQ_i32` (R245). -/
  | lteqI32
  /-- `LTEQ_u64` (R246). -/
  | lteqU64
  /-- `LTEQ_i64` (R247). -/
  | lteqI64
  /-- `LTEQ_f` (R248). -/
  | lteqF
  /-- `LTEQ_d` (R249). -/
  | lteqD
  /-- `GT_u8` (R250). -/
  | gtU8
  /-- `GT_i8` (R251). -/
  | gtI8
  /-- `GT_u16` (R252). -/
  | gtU16
  /-- `GT_i16` (R253). -/
  | gtI16
  /-- `GT_u32` (R254). -/
  | gtU32
  /-- `GT_i32` (R255). -/
  | gtI32
  /-- `GT_u64` (R256). -/
  | gtU64
  /-- `GT_i64` (R257). -/
  | gtI64
  /-- `GT_f` (R258). -/
  | gtF
  /-- `GT_d` (R259). -/
  | gtD
  /-- `GTEQ_u8` (R260). -/
  | gteqU8
  /-- `GTEQ_i8` (R261). -/
  | gteqI8
  /-- `GTEQ_u16` (R262). -/
  | gteqU16
  /-- `GTEQ_i16` (R263). -/
  | gteqI16
  /-- `GTEQ_u32` (R264). -/
  | gteqU32
  /-- `GTEQ_i32` (R265). -/
  | gteqI32
  /-- `GTEQ_u64` (R266). -/
  | gteqU64
  /-- `GTEQ_i64` (R267). -/
  | gteqI64
  /-- `GTEQ_f` (R268). -/
  | gteqF
  /-- `GTEQ_d` (R269). -/
  | gteqD
  -- Logical, bitwise and shift (43_logical_bitwise_shift.md)
  /-- `AND` (R290). -/
  | logicalAnd
  /-- `OR` (R291). -/
  | logicalOr
  /-- `XOR` (R292). -/
  | logicalXor
  /-- `NOT` (R293). -/
  | logicalNot
  /-- `AND_u8` (R294). -/
  | andU8
  /-- `AND_u16` (R295). -/
  | andU16
  /-- `AND_u32` (R296). -/
  | andU32
  /-- `AND_u64` (R297). -/
  | andU64
  /-- `OR_u8` (R298). -/
  | orU8
  /-- `OR_u16` (R299). -/
  | orU16
  /-- `OR_u32` (R300). -/
  | orU32
  /-- `OR_u64` (R301). -/
  | orU64
  /-- `XOR_u8` (R302). -/
  | xorU8
  /-- `XOR_u16` (R303). -/
  | xorU16
  /-- `XOR_u32` (R304). -/
  | xorU32
  /-- `XOR_u64` (R305). -/
  | xorU64
  /-- `NOT_u8` (R306). -/
  | notU8
  /-- `NOT_u16` (R307). -/
  | notU16
  /-- `NOT_u32` (R308). -/
  | notU32
  /-- `NOT_u64` (R309). -/
  | notU64
  /-- `LSHFT_u8` (R310). -/
  | lshftU8
  /-- `LSHFT_u16` (R311). -/
  | lshftU16
  /-- `LSHFT_u32` (R312). -/
  | lshftU32
  /-- `LSHFT_u64` (R313). -/
  | lshftU64
  /-- `RSHFT_u8` (R314). -/
  | rshftU8
  /-- `RSHFT_u16` (R315). -/
  | rshftU16
  /-- `RSHFT_u32` (R316). -/
  | rshftU32
  /-- `RSHFT_u64` (R317). -/
  | rshftU64
  -- Jumps (44_control_flow.md)
  /-- `JMP_u8` (R340). -/
  | jmpU8
  /-- `JMP_u16` (R341). -/
  | jmpU16
  /-- `JMP_u32` (R342). -/
  | jmpU32
  /-- `JMP_u64` (R343). -/
  | jmpU64
  /-- `JMPIF_u8` (R344). -/
  | jmpifU8
  /-- `JMPIF_u16` (R345). -/
  | jmpifU16
  /-- `JMPIF_u32` (R346). -/
  | jmpifU32
  /-- `JMPIF_u64` (R347). -/
  | jmpifU64
  -- Stack immediates, discard, store access (45_stack_and_store.md)
  /-- `PUSH_u8` (R390). -/
  | pushU8 (imm : BitVec 8)
  /-- `PUSH_u16` (R391). -/
  | pushU16 (imm : BitVec 16)
  /-- `PUSH_u32` (R392). -/
  | pushU32 (imm : BitVec 32)
  /-- `PUSH_u64` (R393). -/
  | pushU64 (imm : BitVec 64)
  /-- `POP_u8` (R394). -/
  | popU8
  /-- `POP_u16` (R395). -/
  | popU16
  /-- `POP_u32` (R396). -/
  | popU32
  /-- `POP_u64` (R397). -/
  | popU64
  /-- `LOAD_u8` (R398). -/
  | loadU8
  /-- `LOAD_u16` (R399). -/
  | loadU16
  /-- `LOAD_u32` (R400). -/
  | loadU32
  /-- `LOAD_u64` (R401). -/
  | loadU64
  /-- `STORE_u8` (R402). -/
  | storeU8
  /-- `STORE_u16` (R403). -/
  | storeU16
  /-- `STORE_u32` (R404). -/
  | storeU32
  /-- `STORE_u64` (R405). -/
  | storeU64
  -- Call, return and frame introspection (44_control_flow.md)
  /-- `CALL_u8` (R348). -/
  | callU8
  /-- `CALL_u16` (R349). -/
  | callU16
  /-- `CALL_u32` (R350). -/
  | callU32
  /-- `CALL_u64` (R351). -/
  | callU64
  /-- `RET_u8` (R352). -/
  | retU8
  /-- `RET_u16` (R353). -/
  | retU16
  /-- `RET_u32` (R354). -/
  | retU32
  /-- `RET_u64` (R355). -/
  | retU64
  /-- `ARGC` (R356). -/
  | argc
  /-- `ARG` (R357). -/
  | arg
  -- System (46_system.md)
  /-- `HALT` (R411). -/
  | halt
  /-- `SYSCALL` (R412). -/
  | syscall
deriving DecidableEq, Repr

end Sys2Proof
end

