-- ==== Sys2Proof/WellFormed.lean ====
section
/-! DEFINITION. What makes syntax and parameters well formed. The width of an immediate stands in
the type of its constructor (30_encoding.md R82), so no term of `Instr` is ill formed by itself; an
opcode map and the sizes that a command carries can be. -/

namespace Sys2Proof

/-- The number of instructions (30_encoding.md R86). -/
def numInstrs : Nat := 172

/-- The constraints on any `OPMAP` (30_encoding.md R88), as the list of the 172 opcode bytes in the
order of the instruction set: one byte for every instruction, every byte in 0x01..0xAC, no byte
twice. -/
def OpMap.wellFormed (m : List Byte) : Bool :=
  m.length == numInstrs && m.all (fun b => decide (1 ≤ b.toNat ∧ b.toNat ≤ 0xAC)) && decide m.Nodup

/-- A size that 64 bits can index: `0 <= n < 2^64` (00_scope.md R6: `STACK_CAP`, `STORE_CAP`,
`CODE_LEN`). -/
def sizeOk (n : Nat) : Bool := decide (n < 2 ^ 64)

/-- An instruction is well formed. Every constructor's immediate has the width of its format
(30_encoding.md R81, R82), so every term is. -/
def Instr.wellFormed (_ : Instr) : Bool := true

end Sys2Proof
end

