-- ==== Sys2Proof/Decode.lean ====
section
/-! DEFINITION. The decoder, total on any bytes (spec 30_encoding.md R90), and the encoder. Both take the opcode
map `OPMAP` as an argument (30_encoding.md R88): the list of the opcode bytes of the 172 instructions, in the order of the
instruction set. An opcode is a whole byte with no sub-fields (R80, R84), so decoding is a lookup of the byte
in the map and then of the row in the table. -/

namespace Sys2Proof

/-- The default `OPMAP` (30_encoding.md R87): the instructions numbered consecutively from 0x01, to
0xAC. -/
def defaultOpmap : List Byte := (List.range numInstrs).map fun k => BitVec.ofNat 8 (k + 1)

/-- Why bytes are no instruction. -/
inductive DecodeError where
  /-- There is no byte to decode. -/
  | empty
  /-- The opcode byte is not in the image of `OPMAP` (30_encoding.md R89). -/
  | invalidOpcode (b : Byte)
  /-- The bytes end inside the immediate of a `PUSH_u*`. -/
  | truncated
deriving DecidableEq, Repr

/-- A row of the opcode table: an instruction of format F0, or one of formats F1, F2, F4, F8 whose
immediate follows (30_encoding.md R81, R82). -/
inductive Row where
  | plain (i : Instr)
  | push8
  | push16
  | push32
  | push64
deriving DecidableEq, Repr

/-- Arithmetic (41_arithmetic.md): rows 0 to 47, default opcodes 0x01 to 0x30 (30_encoding.md R87). -/
def arithmeticRows : List Row :=
  ([.plain .addU8, .plain .addI8, .plain .addU16, .plain .addI16, .plain .addU32, .plain .addI32, .plain .addU64, .plain .addI64, .plain .addF, .plain .addD] : List Row) ++
  ([.plain .subU8, .plain .subI8, .plain .subU16, .plain .subI16, .plain .subU32, .plain .subI32, .plain .subU64, .plain .subI64, .plain .subF, .plain .subD] : List Row) ++
  ([.plain .mulU8, .plain .mulI8, .plain .mulU16, .plain .mulI16, .plain .mulU32, .plain .mulI32, .plain .mulU64, .plain .mulI64, .plain .mulF, .plain .mulD] : List Row) ++
  ([.plain .divU8, .plain .divI8, .plain .divU16, .plain .divI16, .plain .divU32, .plain .divI32, .plain .divU64, .plain .divI64, .plain .divF, .plain .divD] : List Row) ++
  ([.plain .modU8, .plain .modI8, .plain .modU16, .plain .modI16, .plain .modU32, .plain .modI32, .plain .modU64, .plain .modI64] : List Row)

/-- Comparison (42_comparison.md): rows 48 to 107, default opcodes 0x31 to 0x6C (30_encoding.md R87). -/
def comparisonRows : List Row :=
  ([.plain .eqU8, .plain .eqI8, .plain .eqU16, .plain .eqI16, .plain .eqU32, .plain .eqI32, .plain .eqU64, .plain .eqI64, .plain .eqF, .plain .eqD] : List Row) ++
  ([.plain .neqU8, .plain .neqI8, .plain .neqU16, .plain .neqI16, .plain .neqU32, .plain .neqI32, .plain .neqU64, .plain .neqI64, .plain .neqF, .plain .neqD] : List Row) ++
  ([.plain .ltU8, .plain .ltI8, .plain .ltU16, .plain .ltI16, .plain .ltU32, .plain .ltI32, .plain .ltU64, .plain .ltI64, .plain .ltF, .plain .ltD] : List Row) ++
  ([.plain .lteqU8, .plain .lteqI8, .plain .lteqU16, .plain .lteqI16, .plain .lteqU32, .plain .lteqI32, .plain .lteqU64, .plain .lteqI64, .plain .lteqF, .plain .lteqD] : List Row) ++
  ([.plain .gtU8, .plain .gtI8, .plain .gtU16, .plain .gtI16, .plain .gtU32, .plain .gtI32, .plain .gtU64, .plain .gtI64, .plain .gtF, .plain .gtD] : List Row) ++
  ([.plain .gteqU8, .plain .gteqI8, .plain .gteqU16, .plain .gteqI16, .plain .gteqU32, .plain .gteqI32, .plain .gteqU64, .plain .gteqI64, .plain .gteqF, .plain .gteqD] : List Row)

/-- Logical, bitwise and shift (43_logical_bitwise_shift.md): rows 108 to 135, default opcodes 0x6D to 0x88 (30_encoding.md R87). -/
def logicalRows : List Row :=
  ([.plain .logicalAnd, .plain .logicalOr, .plain .logicalXor, .plain .logicalNot, .plain .andU8, .plain .andU16, .plain .andU32, .plain .andU64, .plain .orU8, .plain .orU16] : List Row) ++
  ([.plain .orU32, .plain .orU64, .plain .xorU8, .plain .xorU16, .plain .xorU32, .plain .xorU64, .plain .notU8, .plain .notU16, .plain .notU32, .plain .notU64] : List Row) ++
  ([.plain .lshftU8, .plain .lshftU16, .plain .lshftU32, .plain .lshftU64, .plain .rshftU8, .plain .rshftU16, .plain .rshftU32, .plain .rshftU64] : List Row)

/-- Jumps (44_control_flow.md): rows 136 to 143, default opcodes 0x89 to 0x90 (30_encoding.md R87). -/
def jumpRows : List Row :=
  ([.plain .jmpU8, .plain .jmpU16, .plain .jmpU32, .plain .jmpU64, .plain .jmpifU8, .plain .jmpifU16, .plain .jmpifU32, .plain .jmpifU64] : List Row)

/-- Stack immediates, discard, store access (45_stack_and_store.md): rows 144 to 159, default opcodes 0x91 to 0xA0 (30_encoding.md R87). -/
def stackStoreRows : List Row :=
  ([.push8, .push16, .push32, .push64, .plain .popU8, .plain .popU16, .plain .popU32, .plain .popU64, .plain .loadU8, .plain .loadU16] : List Row) ++
  ([.plain .loadU32, .plain .loadU64, .plain .storeU8, .plain .storeU16, .plain .storeU32, .plain .storeU64] : List Row)

/-- Call, return and frame introspection (44_control_flow.md): rows 160 to 169, default opcodes 0xA1 to 0xAA (30_encoding.md R87). -/
def frameRows : List Row :=
  ([.plain .callU8, .plain .callU16, .plain .callU32, .plain .callU64, .plain .retU8, .plain .retU16, .plain .retU32, .plain .retU64, .plain .argc, .plain .arg] : List Row)

/-- System (46_system.md): rows 170 to 171, default opcodes 0xAB to 0xAC (30_encoding.md R87). -/
def systemRows : List Row :=
  ([.plain .halt, .plain .syscall] : List Row)

/-- The opcode table: the 172 rows in order (30_encoding.md R86, R87). -/
def rows : List Row :=
  arithmeticRows ++ comparisonRows ++ logicalRows ++ jumpRows ++ stackStoreRows ++ frameRows ++ systemRows

/-- The place of an instruction in the instruction set, 0 to 171 (30_encoding.md R87: its default opcode
less 1). -/
def rowOf : Instr → Nat
  | .addU8 => 0
  | .addI8 => 1
  | .addU16 => 2
  | .addI16 => 3
  | .addU32 => 4
  | .addI32 => 5
  | .addU64 => 6
  | .addI64 => 7
  | .addF => 8
  | .addD => 9
  | .subU8 => 10
  | .subI8 => 11
  | .subU16 => 12
  | .subI16 => 13
  | .subU32 => 14
  | .subI32 => 15
  | .subU64 => 16
  | .subI64 => 17
  | .subF => 18
  | .subD => 19
  | .mulU8 => 20
  | .mulI8 => 21
  | .mulU16 => 22
  | .mulI16 => 23
  | .mulU32 => 24
  | .mulI32 => 25
  | .mulU64 => 26
  | .mulI64 => 27
  | .mulF => 28
  | .mulD => 29
  | .divU8 => 30
  | .divI8 => 31
  | .divU16 => 32
  | .divI16 => 33
  | .divU32 => 34
  | .divI32 => 35
  | .divU64 => 36
  | .divI64 => 37
  | .divF => 38
  | .divD => 39
  | .modU8 => 40
  | .modI8 => 41
  | .modU16 => 42
  | .modI16 => 43
  | .modU32 => 44
  | .modI32 => 45
  | .modU64 => 46
  | .modI64 => 47
  | .eqU8 => 48
  | .eqI8 => 49
  | .eqU16 => 50
  | .eqI16 => 51
  | .eqU32 => 52
  | .eqI32 => 53
  | .eqU64 => 54
  | .eqI64 => 55
  | .eqF => 56
  | .eqD => 57
  | .neqU8 => 58
  | .neqI8 => 59
  | .neqU16 => 60
  | .neqI16 => 61
  | .neqU32 => 62
  | .neqI32 => 63
  | .neqU64 => 64
  | .neqI64 => 65
  | .neqF => 66
  | .neqD => 67
  | .ltU8 => 68
  | .ltI8 => 69
  | .ltU16 => 70
  | .ltI16 => 71
  | .ltU32 => 72
  | .ltI32 => 73
  | .ltU64 => 74
  | .ltI64 => 75
  | .ltF => 76
  | .ltD => 77
  | .lteqU8 => 78
  | .lteqI8 => 79
  | .lteqU16 => 80
  | .lteqI16 => 81
  | .lteqU32 => 82
  | .lteqI32 => 83
  | .lteqU64 => 84
  | .lteqI64 => 85
  | .lteqF => 86
  | .lteqD => 87
  | .gtU8 => 88
  | .gtI8 => 89
  | .gtU16 => 90
  | .gtI16 => 91
  | .gtU32 => 92
  | .gtI32 => 93
  | .gtU64 => 94
  | .gtI64 => 95
  | .gtF => 96
  | .gtD => 97
  | .gteqU8 => 98
  | .gteqI8 => 99
  | .gteqU16 => 100
  | .gteqI16 => 101
  | .gteqU32 => 102
  | .gteqI32 => 103
  | .gteqU64 => 104
  | .gteqI64 => 105
  | .gteqF => 106
  | .gteqD => 107
  | .logicalAnd => 108
  | .logicalOr => 109
  | .logicalXor => 110
  | .logicalNot => 111
  | .andU8 => 112
  | .andU16 => 113
  | .andU32 => 114
  | .andU64 => 115
  | .orU8 => 116
  | .orU16 => 117
  | .orU32 => 118
  | .orU64 => 119
  | .xorU8 => 120
  | .xorU16 => 121
  | .xorU32 => 122
  | .xorU64 => 123
  | .notU8 => 124
  | .notU16 => 125
  | .notU32 => 126
  | .notU64 => 127
  | .lshftU8 => 128
  | .lshftU16 => 129
  | .lshftU32 => 130
  | .lshftU64 => 131
  | .rshftU8 => 132
  | .rshftU16 => 133
  | .rshftU32 => 134
  | .rshftU64 => 135
  | .jmpU8 => 136
  | .jmpU16 => 137
  | .jmpU32 => 138
  | .jmpU64 => 139
  | .jmpifU8 => 140
  | .jmpifU16 => 141
  | .jmpifU32 => 142
  | .jmpifU64 => 143
  | .pushU8 _ => 144
  | .pushU16 _ => 145
  | .pushU32 _ => 146
  | .pushU64 _ => 147
  | .popU8 => 148
  | .popU16 => 149
  | .popU32 => 150
  | .popU64 => 151
  | .loadU8 => 152
  | .loadU16 => 153
  | .loadU32 => 154
  | .loadU64 => 155
  | .storeU8 => 156
  | .storeU16 => 157
  | .storeU32 => 158
  | .storeU64 => 159
  | .callU8 => 160
  | .callU16 => 161
  | .callU32 => 162
  | .callU64 => 163
  | .retU8 => 164
  | .retU16 => 165
  | .retU32 => 166
  | .retU64 => 167
  | .argc => 168
  | .arg => 169
  | .halt => 170
  | .syscall => 171

/-- The bytes of an instruction's immediate, in code order (30_encoding.md R82, R83). -/
def immBytes : Instr → List Byte
  | .pushU8 imm => Machine.bytesOf imm
  | .pushU16 imm => Machine.bytesOf imm
  | .pushU32 imm => Machine.bytesOf imm
  | .pushU64 imm => Machine.bytesOf imm
  | .addU8 => []
  | .addI8 => []
  | .addU16 => []
  | .addI16 => []
  | .addU32 => []
  | .addI32 => []
  | .addU64 => []
  | .addI64 => []
  | .addF => []
  | .addD => []
  | .subU8 => []
  | .subI8 => []
  | .subU16 => []
  | .subI16 => []
  | .subU32 => []
  | .subI32 => []
  | .subU64 => []
  | .subI64 => []
  | .subF => []
  | .subD => []
  | .mulU8 => []
  | .mulI8 => []
  | .mulU16 => []
  | .mulI16 => []
  | .mulU32 => []
  | .mulI32 => []
  | .mulU64 => []
  | .mulI64 => []
  | .mulF => []
  | .mulD => []
  | .divU8 => []
  | .divI8 => []
  | .divU16 => []
  | .divI16 => []
  | .divU32 => []
  | .divI32 => []
  | .divU64 => []
  | .divI64 => []
  | .divF => []
  | .divD => []
  | .modU8 => []
  | .modI8 => []
  | .modU16 => []
  | .modI16 => []
  | .modU32 => []
  | .modI32 => []
  | .modU64 => []
  | .modI64 => []
  | .eqU8 => []
  | .eqI8 => []
  | .eqU16 => []
  | .eqI16 => []
  | .eqU32 => []
  | .eqI32 => []
  | .eqU64 => []
  | .eqI64 => []
  | .eqF => []
  | .eqD => []
  | .neqU8 => []
  | .neqI8 => []
  | .neqU16 => []
  | .neqI16 => []
  | .neqU32 => []
  | .neqI32 => []
  | .neqU64 => []
  | .neqI64 => []
  | .neqF => []
  | .neqD => []
  | .ltU8 => []
  | .ltI8 => []
  | .ltU16 => []
  | .ltI16 => []
  | .ltU32 => []
  | .ltI32 => []
  | .ltU64 => []
  | .ltI64 => []
  | .ltF => []
  | .ltD => []
  | .lteqU8 => []
  | .lteqI8 => []
  | .lteqU16 => []
  | .lteqI16 => []
  | .lteqU32 => []
  | .lteqI32 => []
  | .lteqU64 => []
  | .lteqI64 => []
  | .lteqF => []
  | .lteqD => []
  | .gtU8 => []
  | .gtI8 => []
  | .gtU16 => []
  | .gtI16 => []
  | .gtU32 => []
  | .gtI32 => []
  | .gtU64 => []
  | .gtI64 => []
  | .gtF => []
  | .gtD => []
  | .gteqU8 => []
  | .gteqI8 => []
  | .gteqU16 => []
  | .gteqI16 => []
  | .gteqU32 => []
  | .gteqI32 => []
  | .gteqU64 => []
  | .gteqI64 => []
  | .gteqF => []
  | .gteqD => []
  | .logicalAnd => []
  | .logicalOr => []
  | .logicalXor => []
  | .logicalNot => []
  | .andU8 => []
  | .andU16 => []
  | .andU32 => []
  | .andU64 => []
  | .orU8 => []
  | .orU16 => []
  | .orU32 => []
  | .orU64 => []
  | .xorU8 => []
  | .xorU16 => []
  | .xorU32 => []
  | .xorU64 => []
  | .notU8 => []
  | .notU16 => []
  | .notU32 => []
  | .notU64 => []
  | .lshftU8 => []
  | .lshftU16 => []
  | .lshftU32 => []
  | .lshftU64 => []
  | .rshftU8 => []
  | .rshftU16 => []
  | .rshftU32 => []
  | .rshftU64 => []
  | .jmpU8 => []
  | .jmpU16 => []
  | .jmpU32 => []
  | .jmpU64 => []
  | .jmpifU8 => []
  | .jmpifU16 => []
  | .jmpifU32 => []
  | .jmpifU64 => []
  | .popU8 => []
  | .popU16 => []
  | .popU32 => []
  | .popU64 => []
  | .loadU8 => []
  | .loadU16 => []
  | .loadU32 => []
  | .loadU64 => []
  | .storeU8 => []
  | .storeU16 => []
  | .storeU32 => []
  | .storeU64 => []
  | .callU8 => []
  | .callU16 => []
  | .callU32 => []
  | .callU64 => []
  | .retU8 => []
  | .retU16 => []
  | .retU32 => []
  | .retU64 => []
  | .argc => []
  | .arg => []
  | .halt => []
  | .syscall => []

/-- Reads an immediate of W bits off the front of the bytes after an opcode. -/
def readImm (w : Nat) (make : BitVec w → Instr) (bs : List Byte) :
    Except DecodeError (Instr × List Byte) :=
  if bs.length < w / 8 then .error .truncated
  else .ok (make (Machine.ofBytes w (bs.take (w / 8))), bs.drop (w / 8))

/-- The instruction of a row, with its immediate from the bytes that follow the opcode. -/
def readRow : Row → List Byte → Except DecodeError (Instr × List Byte)
  | .plain i, bs => .ok (i, bs)
  | .push8, bs => readImm 8 .pushU8 bs
  | .push16, bs => readImm 16 .pushU16 bs
  | .push32, bs => readImm 32 .pushU32 bs
  | .push64, bs => readImm 64 .pushU64 bs

/-- The decoder: the instruction at the front of the bytes and the bytes after it
(30_encoding.md R84, R90; 40_primitives.md R112). -/
def decode (opmap : List Byte) : List Byte → Except DecodeError (Instr × List Byte)
  | [] => .error .empty
  | op :: bs =>
    match opmap.idxOf? op with
    | none => .error (.invalidOpcode op)
    | some k =>
      match rows[k]? with
      | none => .error (.invalidOpcode op)
      | some row => readRow row bs

/-- The encoder: the opcode byte of the map, then the immediate bytes (30_encoding.md R81, R82). -/
def encode (opmap : List Byte) (i : Instr) : List Byte := opmap.getD (rowOf i) 0 :: immBytes i

/-- The length of an instruction in bytes (30_encoding.md R84). -/
def lengthOf (i : Instr) : Nat := 1 + (immBytes i).length

/-- The length of the longest instruction, `PUSH_u64` (30_encoding.md R84). -/
def maxLength : Nat := 9

/-- The bytes of a word numbered as spec/opcode_table.json numbers bits: byte k is bits 8k+7..8k; every bit
from `nbits` up is 0, up to the longest instruction. -/
def tableBytes (nbits w : Nat) : List Byte :=
  (List.range maxLength).map fun k => BitVec.ofNat 8 ((w % 2 ^ nbits) / 2 ^ (8 * k))

/-- The instruction the decoder reads from a word of the opcode table, under the default `OPMAP`. -/
def decodeTableWord (nbits w : Nat) : Option Instr :=
  match decode defaultOpmap (tableBytes nbits w) with
  | .ok (i, _) => some i
  | .error _ => none

end Sys2Proof
end

