-- ==== Sys2Proof/Machine/State.lean ====
section
/-! DEFINITION. The state of the machine as plain data (spec 10_state.md R20, R33; 00_scope.md R6), its
state after reset (10_state.md R40; 70_reset_and_hazards.md R460), and the reasons a step can stop. -/

namespace Sys2Proof.Machine

/-- A byte memory: (address, byte) pairs, addresses strictly rising (`Memory.wf`). An address that is
not listed holds no known byte; what reading it gives is `State.stackByte` and `State.storeByte`
(log 5). -/
abbrev Memory := List Host.Cell

/-- The canonical form of a memory: addresses strictly rising, so no address twice. A listed cell always
differs from an unlisted one, which holds no byte, so nothing else is asked of an entry. -/
abbrev Memory.wf (m : Memory) : Prop := m.Pairwise fun x y => x.1 < y.1

/-- The `status` element (10_state.md R27). -/
inductive Status where
  /-- After reset, before the first run. -/
  | idle
  /-- A run is on: the dispatch step is enabled. -/
  | running
  /-- A SYSCALL has sent its request and the host has not answered. -/
  | waitingHost
  /-- The last run ended by HALT. -/
  | halted
  /-- The last run ended by a fault; left only by reset. -/
  | faulted
deriving DecidableEq, Repr

/-- The values of the `cause` register (60_exceptions.md R421). -/
inductive Cause where
  /-- No fault. -/
  | none
  | stackOverflow
  | stackUnderflow
  | outOfBounds
  | invalidJumpTarget
  | divisionByZero
  | invalidSyscallArity
  | invalidOpcode
  /-- Reserved for a constructor outside the block: no step raises it (60_exceptions.md R432). -/
  | allocationFailure
  | codeOverrun
deriving DecidableEq, Repr

/-- A system-call request (10_state.md R33, R37): the call number and the arguments a[1], a[2], ... in
order; argc is how many there are. -/
structure HostRequest where
  num : Word
  args : List Word
deriving DecidableEq, Repr

/-- A command on the CTRL port (10_state.md R35). -/
inductive Command where
  /-- `reset(STACK_CAP, STORE_CAP, CODE, CODE_LEN)`; `CODE_LEN` is the length of the code. -/
  | reset (stackCap storeCap : Nat) (code : List Byte)
  /-- `run(code_opt, start_pc)`. -/
  | run (code : Option (List Byte)) (startPc : Word)
deriving DecidableEq, Repr

/-- The parameters of the instance (00_scope.md R6). No step changes them; a reset command sets the
capacities. -/
structure Params where
  /-- `STACK_CAP`. -/
  stackCap : Nat
  /-- `STORE_CAP`. -/
  storeCap : Nat
  /-- `SDIV_OVF` (41_arithmetic.md R134). -/
  sdivOvf : SdivOvf
  /-- `OPMAP` (30_encoding.md R88): the opcode byte of each instruction, in the order of the
  instruction set. -/
  opmap : List Byte
deriving DecidableEq, Repr

/-- The state of the machine. -/
structure State where
  /-- The program counter: index of the next code byte (10_state.md R22). -/
  pc : Word
  /-- The stack pointer: the number of stack bytes in use (10_state.md R24). -/
  sp : Word
  /-- The frame pointer: the base of the active call frame (10_state.md R25). -/
  fp : Word
  /-- `status` (10_state.md R27). -/
  status : Status
  /-- `cause` (10_state.md R28). -/
  cause : Cause
  /-- The operand stack `S` (10_state.md R31). -/
  stack : Memory
  /-- The variable store `V` (10_state.md R32). -/
  store : Memory
  /-- The outstanding host request (10_state.md R33). -/
  request : Option HostRequest
  /-- The code buffer `CODE`; its length is `CODE_LEN` (10_state.md R33). -/
  code : List Byte
  /-- The parameters of the instance (00_scope.md R6). -/
  params : Params
  /-- The model's own: CTRL commands the host has issued and the block has not yet taken, oldest first
  (log 10). -/
  commands : List Command
  /-- The model's own: the `HOST` oracle as data (46_system.md R413). A pair (n, r) is the answer r to
  the n-th request the block presents, counting from 1; a request with no pair has no answer
  (log 11). -/
  answers : List (Nat × Word)
  /-- The model's own: the requests the HOST port has presented, oldest first (log 12). -/
  requests : List HostRequest
  /-- The model's own: how many free values have been drawn (log 4). -/
  draws : Nat
  /-- The model's own: the draw of STACK_INIT that unlisted stack bytes read (log 5). -/
  stackDraw : Nat
  /-- The model's own: the draw of STORE_INIT that unlisted store bytes read (log 5). -/
  storeDraw : Nat
deriving DecidableEq, Repr

/-- Why `step` takes no step. No instruction raises one: the spec's faults are next states with status
`faulted` (60_exceptions.md R430, log 9). Each leaves the machine as it stands until the host acts. -/
inductive Fault where
  /-- Raised by `step` in status Idle with no command waiting: no step is enabled before a run command
  (40_primitives.md R112). Safe: the spec has no step there. -/
  | idle
  /-- Raised by `step` in status Halted with no command waiting: the run has ended
  (70_reset_and_hazards.md R464). Safe: the spec has no step there. -/
  | halted
  /-- Raised by `step` in status Faulted with no command waiting: "no further step is taken"
  (60_exceptions.md R430). Safe: the spec has no step there. -/
  | faulted
  /-- Raised by `step` in status WaitingHost while the host has not answered and no command waits: the
  engine takes no step (46_system.md R415). Safe: the spec has no step there. -/
  | waitingHost
deriving DecidableEq, Repr

/-- Why the model gives no meaning. -/
inductive Refusal where
  /-- An instruction whose arm of `exec` has no meaning yet, by its mnemonic. No arm raises it: every
  instruction has its meaning. Safe: a refusal proves nothing. -/
  | notModelled (mnemonic : String)
deriving DecidableEq, Repr

/-- What a step answers. -/
abbrev Result := Host.Outcome State Fault Refusal

/-- The parameters of `State.reset`: the spec's defaults where it has them, the capacities of its test
vectors where it has none (log 1, log 2, log 7). -/
def Params.atReset : Params where
  stackCap := Config.resetStackCap
  storeCap := Config.resetStoreCap
  sdivOvf := .wrap
  opmap := defaultOpmap

/-- The machine right after reset (10_state.md R40; 70_reset_and_hazards.md R460), with an empty code
buffer (log 7) and no command waiting. -/
def State.reset : State where
  pc := 0
  sp := 0
  fp := 0
  status := .idle
  cause := .none
  stack := []
  store := []
  request := none
  code := []
  params := Params.atReset
  commands := []
  answers := []
  requests := []
  draws := 1
  stackDraw := 0
  storeDraw := 0

end Sys2Proof.Machine
end

