-- ==== Sys2Proof/Machine/Ops.lean ====
section
/-! DEFINITION. The operations over memory, registers and the stack that every meaning is written in
(spec 20_memory.md R57, R58; 40_primitives.md R104 to R110), raising a fault (60_exceptions.md R430, R431), and the
host call (46_system.md R413).

An operation that can fail answers `Except Cause`: the cause of the first check that fails, in the order
of the spec's pseudocode (60_exceptions.md R433), or its value and the state it leaves. `finish` turns the
outcome of a whole instruction into a step's: a fault is taken by `raise`. -/

namespace Sys2Proof.Machine

/-! ### Memory -/

/-- The byte listed at an address, if there is one. -/
def Memory.read? : Memory → Nat → Option Byte
  | [], _ => none
  | (k, b) :: m, a => if k = a then some b else Memory.read? m a

/-- Writes one byte, keeping the addresses strictly rising. -/
def Memory.write : Memory → Nat → Byte → Memory
  | [], a, b => [(a, b)]
  | (k, c) :: m, a, b =>
    if a < k then (a, b) :: (k, c) :: m
    else if a = k then (a, b) :: m
    else (k, c) :: Memory.write m a b

/-- Writes bytes at consecutive addresses, the first at `a`. -/
def Memory.writeBytes : Memory → Nat → List Byte → Memory
  | m, _, [] => m
  | m, a, b :: bs => Memory.writeBytes (m.write a b) (a + 1) bs

/-! ### Updates of one field -/

def State.setPc (s : State) (v : Word) : State := { s with pc := v }
def State.setSp (s : State) (v : Word) : State := { s with sp := v }
def State.setFp (s : State) (v : Word) : State := { s with fp := v }
def State.setStatus (s : State) (v : Status) : State := { s with status := v }
def State.setStack (s : State) (m : Memory) : State := { s with stack := m }
def State.setStore (s : State) (m : Memory) : State := { s with store := m }
/-- One more free value has been drawn. -/
def State.countDraw (s : State) : State := { s with draws := s.draws + 1 }

/-! ### Reading the memories -/

/-- `S[i]` (10_state.md R31). An unlisted byte is the free value STACK_INIT of its index (R40,
log 5). -/
def State.stackByte (s : State) (i : Nat) : Byte :=
  (s.stack.read? i).getD (Config.stackInit s.stackDraw i)

/-- `V[a]` (10_state.md R32). An unlisted byte is the free value STORE_INIT of its address, the same at
every read (70_reset_and_hazards.md R461, log 5). -/
def State.storeByte (s : State) (a : Nat) : Byte :=
  (s.store.read? a).getD (Config.storeInit s.storeDraw a)

/-- The stack bytes `S[k]` to `S[k+n-1]`, lowest index first. -/
def State.stackBytes (s : State) (k n : Nat) : List Byte :=
  (List.range n).map fun j => s.stackByte (k + j)

/-- `CODE_LEN` (00_scope.md R6). -/
def State.codeLen (s : State) : Nat := s.code.length

/-! ### Faults -/

/-- `raise C` (60_exceptions.md R430): `cause <- C`, `status <- Faulted`. What `pc`, `sp`, `fp` and the bytes of `S`
then hold is unspecified (R431): free values, log 6. The store, the code and the parameters are as they
were. -/
def raise (c : Cause) (s : State) : State :=
  { s with
    status := .faulted
    cause := c
    pc := Config.faultPc s.draws
    sp := Config.faultSp s.draws
    fp := Config.faultFp s.draws
    stack := []
    stackDraw := s.draws
    draws := s.draws + 1 }

/-- The outcome of an instruction entered in state `s`: the state its statements leave, or the fault
raised at the first check that failed (60_exceptions.md R430, R433). -/
def finish (s : State) (r : Except Cause State) : Result :=
  match r with
  | .ok t => .next t
  | .error c => .next (raise c s)

/-! ### The operand stack -/

/-- Pushes bytes, the first deepest: `sp + n > STACK_CAP` raises `StackOverflow`
(40_primitives.md R104, R106, the single-check form; log 15). -/
def pushBytes (bs : List Byte) (s : State) : Except Cause State :=
  if s.sp.toNat + bs.length > s.params.stackCap then .error .stackOverflow
  else .ok ((s.setStack (s.stack.writeBytes s.sp.toNat bs)).setSp (s.sp + BitVec.ofNat 64 bs.length))

/-- Pops n bytes, in stack-index order: `sp < n` raises `StackUnderflow`. The bytes stay in `S`
(40_primitives.md R105, R107, the single-check form). -/
def popBytes (n : Nat) (s : State) : Except Cause (List Byte × State) :=
  if s.sp.toNat < n then .error .stackUnderflow
  else .ok (s.stackBytes (s.sp.toNat - n) n, s.setSp (s.sp - BitVec.ofNat 64 n))

/-- Drops n bytes unread: `sp < n` raises `StackUnderflow` (45_stack_and_store.md R394 to R397;
44_control_flow.md R336). -/
def dropBytes (n : Nat) (s : State) : Except Cause State :=
  if s.sp.toNat < n then .error .stackUnderflow
  else .ok (s.setSp (s.sp - BitVec.ofNat 64 n))

/-- `Push1` (40_primitives.md R104). -/
def push1 (b : Byte) (s : State) : Except Cause State := pushBytes [b] s

/-- `Pop1` (40_primitives.md R105). -/
def pop1 (s : State) : Except Cause (Byte × State) :=
  if s.sp.toNat < 1 then .error .stackUnderflow
  else .ok (s.stackByte (s.sp.toNat - 1), s.setSp (s.sp - 1))

/-- `PushN(W, v)` (40_primitives.md R106). -/
def pushN {w : Nat} (v : BitVec w) (s : State) : Except Cause State := pushBytes (bytesOf v) s

/-- `PopN(W)` (40_primitives.md R107). -/
def popN (w : Nat) (s : State) : Except Cause (BitVec w × State) := do
  let (bs, s) ← popBytes (w / 8) s
  .ok (ofBytes w bs, s)

/-- The loop of 40_primitives.md R106: `Push1` of each byte in turn. -/
def pushLoop : List Byte → State → Except Cause State
  | [], s => .ok s
  | b :: bs, s => do
    let s ← push1 b s
    pushLoop bs s

/-- The loop of 40_primitives.md R107: `Pop1` n times, the byte popped first coming last in the list. -/
def popLoop : Nat → State → Except Cause (List Byte × State)
  | 0, s => .ok ([], s)
  | n + 1, s => do
    let (b, s) ← pop1 s
    let (bs, s) ← popLoop n s
    .ok (bs ++ [b], s)

/-- `FrameRead(k)`, `k` an unbounded integer (40_primitives.md R110). -/
def frameRead (k : Int) (s : State) : Except Cause Byte :=
  if k < 0 then .error .stackUnderflow
  else if k ≥ (s.sp.toNat : Int) then .error .stackUnderflow
  else .ok (s.stackByte k.toNat)

/-! ### The variable store -/

/-- `StoreRead(a)` (20_memory.md R57). -/
def storeRead (a : Nat) (s : State) : Except Cause Byte :=
  if a ≥ s.params.storeCap then .error .outOfBounds
  else .ok (s.storeByte a)

/-- `StoreWrite(a, b)` (20_memory.md R58). -/
def storeWrite (a : Nat) (b : Byte) (s : State) : Except Cause State :=
  if a ≥ s.params.storeCap then .error .outOfBounds
  else .ok (s.setStore (s.store.write a b))

/-! ### The HOST port -/

/-- Presents a request on the HOST port: status WaitingHost, the request outstanding
(46_system.md R413). -/
def hostCall (num : Word) (args : List Word) (s : State) : State :=
  { s with
    status := .waitingHost
    request := some ⟨num, args⟩
    requests := s.requests ++ [⟨num, args⟩] }

/-- The host's answer to the request presented last, if there is one (46_system.md R413; log 11). -/
def State.answer? (s : State) : Option Word := s.answers.lookup s.requests.length

/-- The request is answered: status Running, no request outstanding (46_system.md R413). -/
def State.resume (s : State) : State := { s with status := .running, request := none }

/-- The host's answer is taken if it is there: status Running again and `PushN(64, r)`
(46_system.md R413). With no answer the machine stays in WaitingHost (R415). -/
def takeAnswer (s : State) : Except Cause State :=
  match s.answer? with
  | none => .ok s
  | some r => pushN r s.resume

end Sys2Proof.Machine
end

