-- ==== Sys2Proof/Machine/Operands.lean ====
section
/-! DEFINITION. The operand forms: typed pops and pushes, and the shapes of instruction that take one
or two operands of a width and push a result (spec 41_arithmetic.md R130; 42_comparison.md R201; 43_logical_bitwise_shift.md
R282; 44_control_flow.md R334; 45_stack_and_store.md R381). -/

namespace Sys2Proof.Machine

/-- `PushF(32, x)`: the bytes of `ser32(x)`, first element first (40_primitives.md R108). -/
def pushF32 (x : BitVec 32) (s : State) : Except Cause State := pushBytes (ser32 x) s

/-- `PushF(64, x)`: the bytes of `ser64(x)`, first element first (40_primitives.md R108). -/
def pushF64 (x : BitVec 64) (s : State) : Except Cause State := pushBytes (ser64 x) s

/-- `PopF(32)`: four bytes handed to `deser32` in stack-index order (40_primitives.md R109). -/
def popF32 (s : State) : Except Cause (BitVec 32 × State) := do
  let (bs, s) ← popBytes 4 s
  .ok (deser32 (bs.getD 0 0) (bs.getD 1 0) (bs.getD 2 0) (bs.getD 3 0), s)

/-- `PopF(64)`: eight bytes handed to `deser64` in stack-index order (40_primitives.md R109). -/
def popF64 (s : State) : Except Cause (BitVec 64 × State) := do
  let (bs, s) ← popBytes 8 s
  .ok (deser64 (bs.getD 0 0) (bs.getD 1 0) (bs.getD 2 0) (bs.getD 3 0)
    (bs.getD 4 0) (bs.getD 5 0) (bs.getD 6 0) (bs.getD 7 0), s)

/-- A target address of W bits, zero-extended to 64 (44_control_flow.md R334). -/
def popTarget (w : Nat) (s : State) : Except Cause (Word × State) := do
  let (t, s) ← popN w s
  .ok (t.setWidth 64, s)

/-- A store address of W bits, as a natural number (45_stack_and_store.md R381). -/
def popAddress (w : Nat) (s : State) : Except Cause (Nat × State) := do
  let (a, s) ← popN w s
  .ok (a.toNat, s)

/-- Two operands of W bits: the right operand is popped first (41_arithmetic.md R130;
42_comparison.md R201). Answers (left, right). -/
def popPair (w : Nat) (s : State) : Except Cause ((BitVec w × BitVec w) × State) := do
  let (b, s) ← popN w s
  let (a, s) ← popN w s
  .ok ((a, b), s)

/-- Two binary32 operands, as `popPair`. -/
def popPairF32 (s : State) : Except Cause ((BitVec 32 × BitVec 32) × State) := do
  let (b, s) ← popF32 s
  let (a, s) ← popF32 s
  .ok ((a, b), s)

/-- Two binary64 operands, as `popPair`. -/
def popPairF64 (s : State) : Except Cause ((BitVec 64 × BitVec 64) × State) := do
  let (b, s) ← popF64 s
  let (a, s) ← popF64 s
  .ok ((a, b), s)

/-- A binary instruction on W-bit operands: pop right, pop left, push the result. -/
def binary {r : Nat} (w : Nat) (f : BitVec w → BitVec w → BitVec r) (s : State) : Except Cause State := do
  let ((a, b), s) ← popPair w s
  pushN (f a b) s

/-- A unary instruction on a W-bit operand. -/
def unary {r : Nat} (w : Nat) (f : BitVec w → BitVec r) (s : State) : Except Cause State := do
  let (a, s) ← popN w s
  pushN (f a) s

/-- A shift: the amount byte is popped first, then the W-bit value (43_logical_bitwise_shift.md R282). -/
def shift (w : Nat) (f : BitVec w → Byte → BitVec w) (s : State) : Except Cause State := do
  let (n, s) ← pop1 s
  let (v, s) ← popN w s
  pushN (f v n) s

end Sys2Proof.Machine
end

