-- ==== Sys2Proof/Machine/Flags.lean ====
section
/-! DEFINITION. Truth values and comparisons. The machine has no status flags, no condition codes and no
predicate registers (spec 10_state.md R26): a comparison pushes a data byte, so what other machines compute into
flags is computed here into that byte (40_primitives.md R117, R120). -/

namespace Sys2Proof.Machine

/-- `Bool(b)`: any nonzero byte is true (40_primitives.md R120). -/
def boolOf (b : Byte) : Bool := decide (b ≠ 0)

/-- `Byte(t)`: 0x01 for true, 0x00 for false (40_primitives.md R120). -/
def byteOf (t : Bool) : Byte := if t then 0x01 else 0x00

/-- `eq` on the bit strings, the same for both signednesses (40_primitives.md R117). -/
def eqBits {w : Nat} (a b : BitVec w) : Bool := decide (a = b)

/-- `neq` on the bit strings (40_primitives.md R117). -/
def neqBits {w : Nat} (a b : BitVec w) : Bool := decide (a ≠ b)

/-- `lt` of an unsigned type (40_primitives.md R117). -/
def ltU {w : Nat} (a b : BitVec w) : Bool := decide (a.toNat < b.toNat)

/-- `lteq` of an unsigned type (40_primitives.md R117). -/
def lteqU {w : Nat} (a b : BitVec w) : Bool := decide (a.toNat ≤ b.toNat)

/-- `gt` of an unsigned type (40_primitives.md R117). -/
def gtU {w : Nat} (a b : BitVec w) : Bool := decide (a.toNat > b.toNat)

/-- `gteq` of an unsigned type (40_primitives.md R117). -/
def gteqU {w : Nat} (a b : BitVec w) : Bool := decide (a.toNat ≥ b.toNat)

/-- `lt` of a signed type (40_primitives.md R117). -/
def ltS {w : Nat} (a b : BitVec w) : Bool := decide (a.toInt < b.toInt)

/-- `lteq` of a signed type (40_primitives.md R117). -/
def lteqS {w : Nat} (a b : BitVec w) : Bool := decide (a.toInt ≤ b.toInt)

/-- `gt` of a signed type (40_primitives.md R117). -/
def gtS {w : Nat} (a b : BitVec w) : Bool := decide (a.toInt > b.toInt)

/-- `gteq` of a signed type (40_primitives.md R117). -/
def gteqS {w : Nat} (a b : BitVec w) : Bool := decide (a.toInt ≥ b.toInt)

/-- A comparison of two W-bit operands, its outcome pushed as one byte (42_comparison.md R200, R201). -/
def compare (w : Nat) (rel : BitVec w → BitVec w → Bool) (s : State) : Except Cause State :=
  binary w (fun a b => byteOf (rel a b)) s

/-- A comparison of two binary32 operands. -/
def compareF32 (rel : BitVec 32 → BitVec 32 → Bool) (s : State) : Except Cause State := do
  let ((a, b), s) ← popPairF32 s
  push1 (byteOf (rel a b)) s

/-- A comparison of two binary64 operands. -/
def compareF64 (rel : BitVec 64 → BitVec 64 → Bool) (s : State) : Except Cause State := do
  let ((a, b), s) ← popPairF64 s
  push1 (byteOf (rel a b)) s

end Sys2Proof.Machine
end

