-- ==== Sys2Proof/Machine/Float.lean ====
section
/-! DEFINITION. `FNUM`, the floating-point numerics of the machine: IEEE 754 addition, subtraction,
multiplication and division in the operand's own format, to nearest with ties to even, with gradual
underflow (spec 40_primitives.md R118), and the floating-point comparison (R119); the formats are
00_scope.md R10.

A finite number is held exactly, as a sign and a natural number of units, one unit being the least positive
subnormal of the format. Every operation is computed exactly on units and rounded once (log 3). Which NaN an
operation returns is left to the parameter `Config.fnum` (log 4). -/

namespace Sys2Proof.Machine

/-- A binary interchange format: one sign bit, then the exponent, then the fraction (00_scope.md R10). -/
structure FloatFormat where
  /-- The width of the exponent field. -/
  expBits : Nat
  /-- The width of the fraction field. -/
  fracBits : Nat
deriving DecidableEq, Repr

/-- binary32: sign 31, exponent 30:23, fraction 22:0 (00_scope.md R10). -/
def binary32 : FloatFormat := ⟨8, 23⟩

/-- binary64: sign 63, exponent 62:52, fraction 51:0 (00_scope.md R10). -/
def binary64 : FloatFormat := ⟨11, 52⟩

/-- An IEEE 754 datum. -/
inductive FloatVal where
  | nan
  /-- An infinity and its sign. -/
  | inf (neg : Bool)
  /-- A finite number: its sign and its magnitude in units. -/
  | fin (neg : Bool) (units : Nat)
deriving DecidableEq, Repr

/-- The bit pattern, without the sign, of infinity: exponent all ones, fraction zero. -/
def FloatFormat.infMag (fmt : FloatFormat) : Nat := (2 ^ fmt.expBits - 1) * 2 ^ fmt.fracBits

/-- The value of the sign bit. -/
def FloatFormat.signBit (fmt : FloatFormat) : Nat := 2 ^ (fmt.expBits + fmt.fracBits)

/-- The number 1.0 is 2^oneShift units: the bias less one plus the fraction width. -/
def FloatFormat.oneShift (fmt : FloatFormat) : Nat := 2 ^ (fmt.expBits - 1) - 2 + fmt.fracBits

/-- The datum that a bit pattern spells. -/
def unpack (fmt : FloatFormat) (x : Nat) : FloatVal :=
  let neg := decide (x / fmt.signBit % 2 = 1)
  let ex := x / 2 ^ fmt.fracBits % 2 ^ fmt.expBits
  let fr := x % 2 ^ fmt.fracBits
  if ex = 2 ^ fmt.expBits - 1 then
    if fr = 0 then .inf neg else .nan
  else if ex = 0 then .fin neg fr
  else .fin neg ((2 ^ fmt.fracBits + fr) * 2 ^ (ex - 1))

/-- The bit pattern of a sign and a magnitude. -/
def withSign (fmt : FloatFormat) (neg : Bool) (mag : Nat) : Nat :=
  if neg then fmt.signBit + mag else mag

/-- Rounds m + r/d, 0 <= r < d, to a natural number: to nearest, ties to even. -/
def roundEven (m r d : Nat) : Nat :=
  if 2 * r > d ∨ (2 * r = d ∧ m % 2 = 1) then m + 1 else m

/-- The magnitude pattern of num/den units, rounded to nearest with ties to even: the significand has
`fracBits + 1` bits at most, so that many leading bits of the quotient are kept and the rest decide the
rounding; a result that is too large is infinity (40_primitives.md R118). -/
def roundMag (fmt : FloatFormat) (num den : Nat) : Nat :=
  let shift := (num / den).log2 - fmt.fracBits
  let d := den * 2 ^ shift
  min (shift * 2 ^ fmt.fracBits + roundEven (num / d) (num % d) d) fmt.infMag

/-- A finite number as a signed number of units. -/
def signedUnits (neg : Bool) (units : Nat) : Int := if neg then -(units : Int) else units

/-- Addition; `none` is a NaN (40_primitives.md R118). An exact sum of zero is +0 unless both operands are
negative zeros. -/
def addVal (fmt : FloatFormat) : FloatVal → FloatVal → Option Nat
  | .nan, _ => none
  | .inf _, .nan => none
  | .fin _ _, .nan => none
  | .inf n, .inf m => if n = m then some (withSign fmt n fmt.infMag) else none
  | .inf n, .fin _ _ => some (withSign fmt n fmt.infMag)
  | .fin _ _, .inf m => some (withSign fmt m fmt.infMag)
  | .fin n u, .fin m v =>
    let sum := signedUnits n u + signedUnits m v
    if sum = 0 then some (withSign fmt (n && m) 0)
    else some (withSign fmt (decide (sum < 0)) (roundMag fmt sum.natAbs 1))

/-- The datum with its sign changed. -/
def FloatVal.negate : FloatVal → FloatVal
  | .nan => .nan
  | .inf n => .inf (!n)
  | .fin n u => .fin (!n) u

/-- Subtraction: addition of the right operand with its sign changed. -/
def subVal (fmt : FloatFormat) (a b : FloatVal) : Option Nat := addVal fmt a b.negate

/-- Multiplication; `none` is a NaN (40_primitives.md R118). -/
def mulVal (fmt : FloatFormat) : FloatVal → FloatVal → Option Nat
  | .nan, _ => none
  | .inf _, .nan => none
  | .fin _ _, .nan => none
  | .inf n, .inf m => some (withSign fmt (n ^^ m) fmt.infMag)
  | .inf n, .fin m v => if v = 0 then none else some (withSign fmt (n ^^ m) fmt.infMag)
  | .fin n u, .inf m => if u = 0 then none else some (withSign fmt (n ^^ m) fmt.infMag)
  | .fin n u, .fin m v => some (withSign fmt (n ^^ m) (roundMag fmt (u * v) (2 ^ fmt.oneShift)))

/-- Division; `none` is a NaN (40_primitives.md R118; 41_arithmetic.md R135: a zero divisor is no fault). -/
def divVal (fmt : FloatFormat) : FloatVal → FloatVal → Option Nat
  | .nan, _ => none
  | .inf _, .nan => none
  | .fin _ _, .nan => none
  | .inf _, .inf _ => none
  | .inf n, .fin m _ => some (withSign fmt (n ^^ m) fmt.infMag)
  | .fin n _, .inf m => some (withSign fmt (n ^^ m) 0)
  | .fin n u, .fin m v =>
    if v = 0 then
      if u = 0 then none else some (withSign fmt (n ^^ m) fmt.infMag)
    else some (withSign fmt (n ^^ m) (roundMag fmt (u * 2 ^ fmt.oneShift) v))

/-- What IEEE 754 gives on data; `none` is a NaN (40_primitives.md R118). -/
def onVals : FloatOp → FloatFormat → FloatVal → FloatVal → Option Nat
  | .add => addVal
  | .sub => subVal
  | .mul => mulVal
  | .div => divVal

/-- What IEEE 754 gives on W-bit patterns; `none` is a NaN, and which one it does not say. -/
def ieeeResult {w : Nat} (fmt : FloatFormat) (op : FloatOp) (a b : BitVec w) : Option (BitVec w) :=
  (onVals op fmt (unpack fmt a.toNat) (unpack fmt b.toNat)).map (BitVec.ofNat w)

/-- A NaN made of a pattern, by its sign and fraction: the pattern itself where it is a NaN, so every NaN of the
format is one of these. -/
def asNan (fmt : FloatFormat) (x : Nat) : Nat :=
  withSign fmt (decide (x / fmt.signBit % 2 = 1)) (fmt.infMag + max 1 (x % 2 ^ fmt.fracBits))

/-- `fadd_W`, `fsub_W`, `fmul_W`, `fdiv_W` (40_primitives.md R118): the parameter `FNUM`, held to what the rule states
of it. Where IEEE 754 fixes the result that is the result; where it is a NaN, which NaN is the parameter's. -/
def fnum {w : Nat} (fmt : FloatFormat) (op : FloatOp) (draw : Nat) (a b : BitVec w) : BitVec w :=
  (ieeeResult fmt op a b).getD (BitVec.ofNat w (asNan fmt (Config.fnum op w draw a b).toNat))

/-- Applies `FNUM` at the draw that is next. Where the choice of a NaN was drawn, the draw is counted, so a later
execution on the same operands need not give the same NaN (92_eei_decisions.md, the list of OPEN parameters). -/
def applyFnum {w : Nat} (fmt : FloatFormat) (op : FloatOp) (a b : BitVec w) (s : State) : BitVec w × State :=
  (fnum fmt op s.draws a b, if (ieeeResult fmt op a b).isNone then s.countDraw else s)

/-- A binary32 arithmetic instruction (41_arithmetic.md R132). -/
def arithF32 (op : FloatOp) (s : State) : Except Cause State := do
  let ((a, b), s) ← popPairF32 s
  let (r, s) := applyFnum binary32 op a b s
  pushF32 r s

/-- A binary64 arithmetic instruction (41_arithmetic.md R132). -/
def arithF64 (op : FloatOp) (s : State) : Except Cause State := do
  let ((a, b), s) ← popPairF64 s
  let (r, s) := applyFnum binary64 op a b s
  pushF64 r s

/-- `feq`: false when an operand is a NaN; -0 equals +0 (40_primitives.md R119). -/
def feqVal : FloatVal → FloatVal → Bool
  | .nan, _ => false
  | .inf _, .nan => false
  | .fin _ _, .nan => false
  | .inf n, .inf m => decide (n = m)
  | .inf _, .fin _ _ => false
  | .fin _ _, .inf _ => false
  | .fin n u, .fin m v => decide (signedUnits n u = signedUnits m v)

/-- `flt`: false when an operand is a NaN (40_primitives.md R119). -/
def fltVal : FloatVal → FloatVal → Bool
  | .nan, _ => false
  | .inf _, .nan => false
  | .fin _ _, .nan => false
  | .inf n, .inf m => n && !m
  | .inf n, .fin _ _ => n
  | .fin _ _, .inf m => !m
  | .fin n u, .fin m v => decide (signedUnits n u < signedUnits m v)

/-- `fneq = not feq` in every case (40_primitives.md R119). -/
def fneqVal (a b : FloatVal) : Bool := !feqVal a b

/-- `flteq` (40_primitives.md R119). -/
def flteqVal (a b : FloatVal) : Bool := fltVal a b || feqVal a b

/-- `fgt` (40_primitives.md R119). -/
def fgtVal (a b : FloatVal) : Bool := fltVal b a

/-- `fgteq` (40_primitives.md R119). -/
def fgteqVal (a b : FloatVal) : Bool := fltVal b a || feqVal a b

/-- A floating-point relation on W-bit patterns. -/
def relPatterns {w : Nat} (fmt : FloatFormat) (rel : FloatVal → FloatVal → Bool) (a b : BitVec w) : Bool :=
  rel (unpack fmt a.toNat) (unpack fmt b.toNat)

end Sys2Proof.Machine
end

