-- ==== Sys2Proof/Machine/Arithmetic.lean ====
section
/-! DEFINITION. ADD, SUB, MUL, DIV and MOD (spec 41_arithmetic.md). -/

namespace Sys2Proof.Machine

/-- `add_T` of an unsigned type: the operands zero-extended to the result width p, the sum modulo 2^p
(40_primitives.md R114; 41_arithmetic.md R131). -/
def addU {w : Nat} (p : Nat) (a b : BitVec w) : BitVec p := a.setWidth p + b.setWidth p

/-- `add_T` of a signed type: the operands sign-extended to the result width (40_primitives.md R114). -/
def addS {w : Nat} (p : Nat) (a b : BitVec w) : BitVec p := a.signExtend p + b.signExtend p

/-- `sub_T` of an unsigned type (40_primitives.md R114). -/
def subU {w : Nat} (p : Nat) (a b : BitVec w) : BitVec p := a.setWidth p - b.setWidth p

/-- `sub_T` of a signed type (40_primitives.md R114). -/
def subS {w : Nat} (p : Nat) (a b : BitVec w) : BitVec p := a.signExtend p - b.signExtend p

/-- `mul_T` of an unsigned type (40_primitives.md R114). -/
def mulU {w : Nat} (p : Nat) (a b : BitVec w) : BitVec p := a.setWidth p * b.setWidth p

/-- `mul_T` of a signed type (40_primitives.md R114). -/
def mulS {w : Nat} (p : Nat) (a b : BitVec w) : BitVec p := a.signExtend p * b.signExtend p

/-- `udiv(a, b)`, b not 0 (40_primitives.md R115). -/
def udiv {w : Nat} (a b : BitVec w) : BitVec w := BitVec.ofNat w (a.toNat / b.toNat)

/-- `urem(a, b)`, b not 0 (40_primitives.md R115). -/
def urem {w : Nat} (a b : BitVec w) : BitVec w := BitVec.ofNat w (a.toNat % b.toNat)

/-- `sdiv_W(a, b)`, b not 0: truncated toward zero, modulo 2^W (40_primitives.md R116; for
-2^(W-1) / -1 this is the value `wrap` of 41_arithmetic.md R134). -/
def sdiv {w : Nat} (a b : BitVec w) : BitVec w := BitVec.ofInt w (a.toInt.tdiv b.toInt)

/-- `srem_W(a, b)`, b not 0: the sign of the left operand (40_primitives.md R116). -/
def srem {w : Nat} (a b : BitVec w) : BitVec w := BitVec.ofInt w (a.toInt.tmod b.toInt)

/-- The operand pair whose quotient W bits cannot hold: -2^(W-1) and -1 (41_arithmetic.md R134). -/
def sdivOverflows {w : Nat} (a b : BitVec w) : Bool := decide (a = BitVec.intMin w ∧ b = BitVec.allOnes w)

/-- Unsigned DIV and MOD: `DivisionByZero` after both pops when the right operand is zero
(41_arithmetic.md R133). -/
def divideU (w : Nat) (f : BitVec w → BitVec w → BitVec w) (s : State) : Except Cause State := do
  let ((a, b), s) ← popPair w s
  if b = 0 then .error .divisionByZero
  else pushN (f a b) s

/-- Signed DIV and MOD: as unsigned, and under `SDIV_OVF = fault` the overflowing pair raises
`DivisionByZero` too (41_arithmetic.md R133, R134). -/
def divideS (w : Nat) (f : BitVec w → BitVec w → BitVec w) (s : State) : Except Cause State := do
  let ((a, b), s) ← popPair w s
  if b = 0 then .error .divisionByZero
  else if s.params.sdivOvf = .fault ∧ sdivOverflows a b then .error .divisionByZero
  else pushN (f a b) s

/-- `ADD_u8` (41_arithmetic.md R140). -/
def execAddU8 (s : State) : Result :=
  finish s (binary 8 (addU 16) s)

/-- `ADD_i8` (41_arithmetic.md R141). -/
def execAddI8 (s : State) : Result :=
  finish s (binary 8 (addS 16) s)

/-- `ADD_u16` (41_arithmetic.md R142). -/
def execAddU16 (s : State) : Result :=
  finish s (binary 16 (addU 32) s)

/-- `ADD_i16` (41_arithmetic.md R143). -/
def execAddI16 (s : State) : Result :=
  finish s (binary 16 (addS 32) s)

/-- `ADD_u32` (41_arithmetic.md R144). -/
def execAddU32 (s : State) : Result :=
  finish s (binary 32 (addU 64) s)

/-- `ADD_i32` (41_arithmetic.md R145). -/
def execAddI32 (s : State) : Result :=
  finish s (binary 32 (addS 64) s)

/-- `ADD_u64` (41_arithmetic.md R146). -/
def execAddU64 (s : State) : Result :=
  finish s (binary 64 (addU 64) s)

/-- `ADD_i64` (41_arithmetic.md R147). -/
def execAddI64 (s : State) : Result :=
  finish s (binary 64 (addS 64) s)

/-- `ADD_f` (41_arithmetic.md R148). -/
def execAddF (s : State) : Result :=
  finish s (arithF32 .add s)

/-- `ADD_d` (41_arithmetic.md R149). -/
def execAddD (s : State) : Result :=
  finish s (arithF64 .add s)

/-- `SUB_u8` (41_arithmetic.md R150). -/
def execSubU8 (s : State) : Result :=
  finish s (binary 8 (subU 16) s)

/-- `SUB_i8` (41_arithmetic.md R151). -/
def execSubI8 (s : State) : Result :=
  finish s (binary 8 (subS 16) s)

/-- `SUB_u16` (41_arithmetic.md R152). -/
def execSubU16 (s : State) : Result :=
  finish s (binary 16 (subU 32) s)

/-- `SUB_i16` (41_arithmetic.md R153). -/
def execSubI16 (s : State) : Result :=
  finish s (binary 16 (subS 32) s)

/-- `SUB_u32` (41_arithmetic.md R154). -/
def execSubU32 (s : State) : Result :=
  finish s (binary 32 (subU 64) s)

/-- `SUB_i32` (41_arithmetic.md R155). -/
def execSubI32 (s : State) : Result :=
  finish s (binary 32 (subS 64) s)

/-- `SUB_u64` (41_arithmetic.md R156). -/
def execSubU64 (s : State) : Result :=
  finish s (binary 64 (subU 64) s)

/-- `SUB_i64` (41_arithmetic.md R157). -/
def execSubI64 (s : State) : Result :=
  finish s (binary 64 (subS 64) s)

/-- `SUB_f` (41_arithmetic.md R158). -/
def execSubF (s : State) : Result :=
  finish s (arithF32 .sub s)

/-- `SUB_d` (41_arithmetic.md R159). -/
def execSubD (s : State) : Result :=
  finish s (arithF64 .sub s)

/-- `MUL_u8` (41_arithmetic.md R160). -/
def execMulU8 (s : State) : Result :=
  finish s (binary 8 (mulU 16) s)

/-- `MUL_i8` (41_arithmetic.md R161). -/
def execMulI8 (s : State) : Result :=
  finish s (binary 8 (mulS 16) s)

/-- `MUL_u16` (41_arithmetic.md R162). -/
def execMulU16 (s : State) : Result :=
  finish s (binary 16 (mulU 32) s)

/-- `MUL_i16` (41_arithmetic.md R163). -/
def execMulI16 (s : State) : Result :=
  finish s (binary 16 (mulS 32) s)

/-- `MUL_u32` (41_arithmetic.md R164). -/
def execMulU32 (s : State) : Result :=
  finish s (binary 32 (mulU 64) s)

/-- `MUL_i32` (41_arithmetic.md R165). -/
def execMulI32 (s : State) : Result :=
  finish s (binary 32 (mulS 64) s)

/-- `MUL_u64` (41_arithmetic.md R166). -/
def execMulU64 (s : State) : Result :=
  finish s (binary 64 (mulU 64) s)

/-- `MUL_i64` (41_arithmetic.md R167). -/
def execMulI64 (s : State) : Result :=
  finish s (binary 64 (mulS 64) s)

/-- `MUL_f` (41_arithmetic.md R168). -/
def execMulF (s : State) : Result :=
  finish s (arithF32 .mul s)

/-- `MUL_d` (41_arithmetic.md R169). -/
def execMulD (s : State) : Result :=
  finish s (arithF64 .mul s)

/-- `DIV_u8` (41_arithmetic.md R170). -/
def execDivU8 (s : State) : Result :=
  finish s (divideU 8 udiv s)

/-- `DIV_i8` (41_arithmetic.md R171). -/
def execDivI8 (s : State) : Result :=
  finish s (divideS 8 sdiv s)

/-- `DIV_u16` (41_arithmetic.md R172). -/
def execDivU16 (s : State) : Result :=
  finish s (divideU 16 udiv s)

/-- `DIV_i16` (41_arithmetic.md R173). -/
def execDivI16 (s : State) : Result :=
  finish s (divideS 16 sdiv s)

/-- `DIV_u32` (41_arithmetic.md R174). -/
def execDivU32 (s : State) : Result :=
  finish s (divideU 32 udiv s)

/-- `DIV_i32` (41_arithmetic.md R175). -/
def execDivI32 (s : State) : Result :=
  finish s (divideS 32 sdiv s)

/-- `DIV_u64` (41_arithmetic.md R176). -/
def execDivU64 (s : State) : Result :=
  finish s (divideU 64 udiv s)

/-- `DIV_i64` (41_arithmetic.md R177). -/
def execDivI64 (s : State) : Result :=
  finish s (divideS 64 sdiv s)

/-- `DIV_f` (41_arithmetic.md R178). -/
def execDivF (s : State) : Result :=
  finish s (arithF32 .div s)

/-- `DIV_d` (41_arithmetic.md R179). -/
def execDivD (s : State) : Result :=
  finish s (arithF64 .div s)

/-- `MOD_u8` (41_arithmetic.md R180). -/
def execModU8 (s : State) : Result :=
  finish s (divideU 8 urem s)

/-- `MOD_i8` (41_arithmetic.md R181). -/
def execModI8 (s : State) : Result :=
  finish s (divideS 8 srem s)

/-- `MOD_u16` (41_arithmetic.md R182). -/
def execModU16 (s : State) : Result :=
  finish s (divideU 16 urem s)

/-- `MOD_i16` (41_arithmetic.md R183). -/
def execModI16 (s : State) : Result :=
  finish s (divideS 16 srem s)

/-- `MOD_u32` (41_arithmetic.md R184). -/
def execModU32 (s : State) : Result :=
  finish s (divideU 32 urem s)

/-- `MOD_i32` (41_arithmetic.md R185). -/
def execModI32 (s : State) : Result :=
  finish s (divideS 32 srem s)

/-- `MOD_u64` (41_arithmetic.md R186). -/
def execModU64 (s : State) : Result :=
  finish s (divideU 64 urem s)

/-- `MOD_i64` (41_arithmetic.md R187). -/
def execModI64 (s : State) : Result :=
  finish s (divideS 64 srem s)

end Sys2Proof.Machine
end

