-- ==== Sys2Proof/Machine/Comparison.lean ====
section
/-! DEFINITION. EQ, NEQ, LT, LTEQ, GT and GTEQ (spec 42_comparison.md). -/

namespace Sys2Proof.Machine

/-- `EQ_u8` (42_comparison.md R210). -/
def execEqU8 (s : State) : Result :=
  finish s (compare 8 eqBits s)

/-- `EQ_i8` (42_comparison.md R211). -/
def execEqI8 (s : State) : Result :=
  finish s (compare 8 eqBits s)

/-- `EQ_u16` (42_comparison.md R212). -/
def execEqU16 (s : State) : Result :=
  finish s (compare 16 eqBits s)

/-- `EQ_i16` (42_comparison.md R213). -/
def execEqI16 (s : State) : Result :=
  finish s (compare 16 eqBits s)

/-- `EQ_u32` (42_comparison.md R214). -/
def execEqU32 (s : State) : Result :=
  finish s (compare 32 eqBits s)

/-- `EQ_i32` (42_comparison.md R215). -/
def execEqI32 (s : State) : Result :=
  finish s (compare 32 eqBits s)

/-- `EQ_u64` (42_comparison.md R216). -/
def execEqU64 (s : State) : Result :=
  finish s (compare 64 eqBits s)

/-- `EQ_i64` (42_comparison.md R217). -/
def execEqI64 (s : State) : Result :=
  finish s (compare 64 eqBits s)

/-- `EQ_f` (42_comparison.md R218). -/
def execEqF (s : State) : Result :=
  finish s (compareF32 (relPatterns binary32 feqVal) s)

/-- `EQ_d` (42_comparison.md R219). -/
def execEqD (s : State) : Result :=
  finish s (compareF64 (relPatterns binary64 feqVal) s)

/-- `NEQ_u8` (42_comparison.md R220). -/
def execNeqU8 (s : State) : Result :=
  finish s (compare 8 neqBits s)

/-- `NEQ_i8` (42_comparison.md R221). -/
def execNeqI8 (s : State) : Result :=
  finish s (compare 8 neqBits s)

/-- `NEQ_u16` (42_comparison.md R222). -/
def execNeqU16 (s : State) : Result :=
  finish s (compare 16 neqBits s)

/-- `NEQ_i16` (42_comparison.md R223). -/
def execNeqI16 (s : State) : Result :=
  finish s (compare 16 neqBits s)

/-- `NEQ_u32` (42_comparison.md R224). -/
def execNeqU32 (s : State) : Result :=
  finish s (compare 32 neqBits s)

/-- `NEQ_i32` (42_comparison.md R225). -/
def execNeqI32 (s : State) : Result :=
  finish s (compare 32 neqBits s)

/-- `NEQ_u64` (42_comparison.md R226). -/
def execNeqU64 (s : State) : Result :=
  finish s (compare 64 neqBits s)

/-- `NEQ_i64` (42_comparison.md R227). -/
def execNeqI64 (s : State) : Result :=
  finish s (compare 64 neqBits s)

/-- `NEQ_f` (42_comparison.md R228). -/
def execNeqF (s : State) : Result :=
  finish s (compareF32 (relPatterns binary32 fneqVal) s)

/-- `NEQ_d` (42_comparison.md R229). -/
def execNeqD (s : State) : Result :=
  finish s (compareF64 (relPatterns binary64 fneqVal) s)

/-- `LT_u8` (42_comparison.md R230). -/
def execLtU8 (s : State) : Result :=
  finish s (compare 8 ltU s)

/-- `LT_i8` (42_comparison.md R231). -/
def execLtI8 (s : State) : Result :=
  finish s (compare 8 ltS s)

/-- `LT_u16` (42_comparison.md R232). -/
def execLtU16 (s : State) : Result :=
  finish s (compare 16 ltU s)

/-- `LT_i16` (42_comparison.md R233). -/
def execLtI16 (s : State) : Result :=
  finish s (compare 16 ltS s)

/-- `LT_u32` (42_comparison.md R234). -/
def execLtU32 (s : State) : Result :=
  finish s (compare 32 ltU s)

/-- `LT_i32` (42_comparison.md R235). -/
def execLtI32 (s : State) : Result :=
  finish s (compare 32 ltS s)

/-- `LT_u64` (42_comparison.md R236). -/
def execLtU64 (s : State) : Result :=
  finish s (compare 64 ltU s)

/-- `LT_i64` (42_comparison.md R237). -/
def execLtI64 (s : State) : Result :=
  finish s (compare 64 ltS s)

/-- `LT_f` (42_comparison.md R238). -/
def execLtF (s : State) : Result :=
  finish s (compareF32 (relPatterns binary32 fltVal) s)

/-- `LT_d` (42_comparison.md R239). -/
def execLtD (s : State) : Result :=
  finish s (compareF64 (relPatterns binary64 fltVal) s)

/-- `LTEQ_u8` (42_comparison.md R240). -/
def execLteqU8 (s : State) : Result :=
  finish s (compare 8 lteqU s)

/-- `LTEQ_i8` (42_comparison.md R241). -/
def execLteqI8 (s : State) : Result :=
  finish s (compare 8 lteqS s)

/-- `LTEQ_u16` (42_comparison.md R242). -/
def execLteqU16 (s : State) : Result :=
  finish s (compare 16 lteqU s)

/-- `LTEQ_i16` (42_comparison.md R243). -/
def execLteqI16 (s : State) : Result :=
  finish s (compare 16 lteqS s)

/-- `LTEQ_u32` (42_comparison.md R244). -/
def execLteqU32 (s : State) : Result :=
  finish s (compare 32 lteqU s)

/-- `LTEQ_i32` (42_comparison.md R245). -/
def execLteqI32 (s : State) : Result :=
  finish s (compare 32 lteqS s)

/-- `LTEQ_u64` (42_comparison.md R246). -/
def execLteqU64 (s : State) : Result :=
  finish s (compare 64 lteqU s)

/-- `LTEQ_i64` (42_comparison.md R247). -/
def execLteqI64 (s : State) : Result :=
  finish s (compare 64 lteqS s)

/-- `LTEQ_f` (42_comparison.md R248). -/
def execLteqF (s : State) : Result :=
  finish s (compareF32 (relPatterns binary32 flteqVal) s)

/-- `LTEQ_d` (42_comparison.md R249). -/
def execLteqD (s : State) : Result :=
  finish s (compareF64 (relPatterns binary64 flteqVal) s)

/-- `GT_u8` (42_comparison.md R250). -/
def execGtU8 (s : State) : Result :=
  finish s (compare 8 gtU s)

/-- `GT_i8` (42_comparison.md R251). -/
def execGtI8 (s : State) : Result :=
  finish s (compare 8 gtS s)

/-- `GT_u16` (42_comparison.md R252). -/
def execGtU16 (s : State) : Result :=
  finish s (compare 16 gtU s)

/-- `GT_i16` (42_comparison.md R253). -/
def execGtI16 (s : State) : Result :=
  finish s (compare 16 gtS s)

/-- `GT_u32` (42_comparison.md R254). -/
def execGtU32 (s : State) : Result :=
  finish s (compare 32 gtU s)

/-- `GT_i32` (42_comparison.md R255). -/
def execGtI32 (s : State) : Result :=
  finish s (compare 32 gtS s)

/-- `GT_u64` (42_comparison.md R256). -/
def execGtU64 (s : State) : Result :=
  finish s (compare 64 gtU s)

/-- `GT_i64` (42_comparison.md R257). -/
def execGtI64 (s : State) : Result :=
  finish s (compare 64 gtS s)

/-- `GT_f` (42_comparison.md R258). -/
def execGtF (s : State) : Result :=
  finish s (compareF32 (relPatterns binary32 fgtVal) s)

/-- `GT_d` (42_comparison.md R259). -/
def execGtD (s : State) : Result :=
  finish s (compareF64 (relPatterns binary64 fgtVal) s)

/-- `GTEQ_u8` (42_comparison.md R260). -/
def execGteqU8 (s : State) : Result :=
  finish s (compare 8 gteqU s)

/-- `GTEQ_i8` (42_comparison.md R261). -/
def execGteqI8 (s : State) : Result :=
  finish s (compare 8 gteqS s)

/-- `GTEQ_u16` (42_comparison.md R262). -/
def execGteqU16 (s : State) : Result :=
  finish s (compare 16 gteqU s)

/-- `GTEQ_i16` (42_comparison.md R263). -/
def execGteqI16 (s : State) : Result :=
  finish s (compare 16 gteqS s)

/-- `GTEQ_u32` (42_comparison.md R264). -/
def execGteqU32 (s : State) : Result :=
  finish s (compare 32 gteqU s)

/-- `GTEQ_i32` (42_comparison.md R265). -/
def execGteqI32 (s : State) : Result :=
  finish s (compare 32 gteqS s)

/-- `GTEQ_u64` (42_comparison.md R266). -/
def execGteqU64 (s : State) : Result :=
  finish s (compare 64 gteqU s)

/-- `GTEQ_i64` (42_comparison.md R267). -/
def execGteqI64 (s : State) : Result :=
  finish s (compare 64 gteqS s)

/-- `GTEQ_f` (42_comparison.md R268). -/
def execGteqF (s : State) : Result :=
  finish s (compareF32 (relPatterns binary32 fgteqVal) s)

/-- `GTEQ_d` (42_comparison.md R269). -/
def execGteqD (s : State) : Result :=
  finish s (compareF64 (relPatterns binary64 fgteqVal) s)

end Sys2Proof.Machine
end

