-- ==== Sys2Proof/Machine/Control.lean ====
section
/-! DEFINITION. JMP, JMPIF, CALL, RET, ARGC and ARG (spec 44_control_flow.md). -/

namespace Sys2Proof.Machine

/-- `CheckTarget(t)`: `t >= CODE_LEN` raises `InvalidJumpTarget` (44_control_flow.md R335). -/
def checkTarget (t : Word) (s : State) : Except Cause Unit :=
  if t.toNat ≥ s.codeLen then .error .invalidJumpTarget else .ok ()

/-- `pc <- t` after `CheckTarget(t)`. -/
def jumpTo (t : Word) (s : State) : Except Cause State := do
  checkTarget t s
  .ok (s.setPc t)

/-- `JMP_uW` (44_control_flow.md R340 to R343). -/
def jump (w : Nat) (s : State) : Except Cause State := do
  let (t, s) ← popTarget w s
  jumpTo t s

/-- `JMPIF_uW`: the target is popped first, then the condition byte, and the target is checked only when the
branch is taken (44_control_flow.md R344 to R347). -/
def jumpIf (w : Nat) (s : State) : Except Cause State := do
  let (t, s) ← popTarget w s
  let (c, s) ← pop1 s
  if boolOf c then jumpTo t s else .ok s

/-- `Call(W)` (44_control_flow.md R337). -/
def call (w : Nat) (s : State) : Except Cause State := do
  let (t, s) ← popTarget w s
  let s ← pushN s.pc s
  let s ← pushN s.fp s
  let s := s.setFp s.sp
  jumpTo t s

/-- `Return(W)` (44_control_flow.md R336). -/
def ret (w : Nat) (s : State) : Except Cause State := do
  let (v, s) ← popN w s
  if s.fp.toNat > s.sp.toNat then .error .stackUnderflow
  else
    let s := s.setSp s.fp
    let (fpSaved, s) ← popN 64 s
    let (pcSaved, s) ← popN 64 s
    let (argc, s) ← pop1 s
    let s ← dropBytes argc.toNat s
    let s ← pushN v s
    .ok ((s.setFp fpSaved).setPc pcSaved)

/-- The body of `ARGC`: `Push1(FrameRead(fp - 17))` (44_control_flow.md R333, R356). -/
def argCount (s : State) : Except Cause State := do
  let b ← frameRead ((s.fp.toNat : Int) - 17) s
  push1 b s

/-- The body of `ARG`: pops i, `Push1(FrameRead(fp - 18 - u(i)))` (44_control_flow.md R333, R357). -/
def argByte (s : State) : Except Cause State := do
  let (i, s) ← pop1 s
  let b ← frameRead ((s.fp.toNat : Int) - 18 - (i.toNat : Int)) s
  push1 b s

/-- `JMP_u8` (44_control_flow.md R340). -/
def execJmpU8 (s : State) : Result :=
  finish s (jump 8 s)

/-- `JMP_u16` (44_control_flow.md R341). -/
def execJmpU16 (s : State) : Result :=
  finish s (jump 16 s)

/-- `JMP_u32` (44_control_flow.md R342). -/
def execJmpU32 (s : State) : Result :=
  finish s (jump 32 s)

/-- `JMP_u64` (44_control_flow.md R343). -/
def execJmpU64 (s : State) : Result :=
  finish s (jump 64 s)

/-- `JMPIF_u8` (44_control_flow.md R344). -/
def execJmpifU8 (s : State) : Result :=
  finish s (jumpIf 8 s)

/-- `JMPIF_u16` (44_control_flow.md R345). -/
def execJmpifU16 (s : State) : Result :=
  finish s (jumpIf 16 s)

/-- `JMPIF_u32` (44_control_flow.md R346). -/
def execJmpifU32 (s : State) : Result :=
  finish s (jumpIf 32 s)

/-- `JMPIF_u64` (44_control_flow.md R347). -/
def execJmpifU64 (s : State) : Result :=
  finish s (jumpIf 64 s)

/-- `CALL_u8` (44_control_flow.md R348). -/
def execCallU8 (s : State) : Result :=
  finish s (call 8 s)

/-- `CALL_u16` (44_control_flow.md R349). -/
def execCallU16 (s : State) : Result :=
  finish s (call 16 s)

/-- `CALL_u32` (44_control_flow.md R350). -/
def execCallU32 (s : State) : Result :=
  finish s (call 32 s)

/-- `CALL_u64` (44_control_flow.md R351). -/
def execCallU64 (s : State) : Result :=
  finish s (call 64 s)

/-- `RET_u8` (44_control_flow.md R352). -/
def execRetU8 (s : State) : Result :=
  finish s (ret 8 s)

/-- `RET_u16` (44_control_flow.md R353). -/
def execRetU16 (s : State) : Result :=
  finish s (ret 16 s)

/-- `RET_u32` (44_control_flow.md R354). -/
def execRetU32 (s : State) : Result :=
  finish s (ret 32 s)

/-- `RET_u64` (44_control_flow.md R355). -/
def execRetU64 (s : State) : Result :=
  finish s (ret 64 s)

/-- `ARGC` (44_control_flow.md R356). -/
def execArgc (s : State) : Result :=
  finish s (argCount s)

/-- `ARG` (44_control_flow.md R357). -/
def execArg (s : State) : Result :=
  finish s (argByte s)

end Sys2Proof.Machine
end

