-- ==== Sys2Proof/Machine/Logical.lean ====
section
/-! DEFINITION. The logical, bitwise and shift instructions (spec 43_logical_bitwise_shift.md). -/

namespace Sys2Proof.Machine

/-- `shl_W(v, n)`: zero when n is the width or more (40_primitives.md R121). -/
def shl {w : Nat} (v : BitVec w) (n : Byte) : BitVec w :=
  if n.toNat < w then BitVec.ofNat w (v.toNat * 2 ^ n.toNat) else 0

/-- `shr_W(v, n)`: the logical right shift, zero when n is the width or more (40_primitives.md R121). -/
def shr {w : Nat} (v : BitVec w) (n : Byte) : BitVec w :=
  if n.toNat < w then BitVec.ofNat w (v.toNat / 2 ^ n.toNat) else 0

/-- `AND` (43_logical_bitwise_shift.md R290). -/
def execLogicalAnd (s : State) : Result :=
  finish s (binary 8 (fun a b => byteOf (boolOf a && boolOf b)) s)

/-- `OR` (43_logical_bitwise_shift.md R291). -/
def execLogicalOr (s : State) : Result :=
  finish s (binary 8 (fun a b => byteOf (boolOf a || boolOf b)) s)

/-- `XOR` (43_logical_bitwise_shift.md R292). -/
def execLogicalXor (s : State) : Result :=
  finish s (binary 8 (fun a b => byteOf (boolOf a ^^ boolOf b)) s)

/-- `NOT` (43_logical_bitwise_shift.md R293). -/
def execLogicalNot (s : State) : Result :=
  finish s (unary 8 (fun a => byteOf (!boolOf a)) s)

/-- `AND_u8` (43_logical_bitwise_shift.md R294). -/
def execAndU8 (s : State) : Result :=
  finish s (binary 8 (fun a b => a &&& b) s)

/-- `AND_u16` (43_logical_bitwise_shift.md R295). -/
def execAndU16 (s : State) : Result :=
  finish s (binary 16 (fun a b => a &&& b) s)

/-- `AND_u32` (43_logical_bitwise_shift.md R296). -/
def execAndU32 (s : State) : Result :=
  finish s (binary 32 (fun a b => a &&& b) s)

/-- `AND_u64` (43_logical_bitwise_shift.md R297). -/
def execAndU64 (s : State) : Result :=
  finish s (binary 64 (fun a b => a &&& b) s)

/-- `OR_u8` (43_logical_bitwise_shift.md R298). -/
def execOrU8 (s : State) : Result :=
  finish s (binary 8 (fun a b => a ||| b) s)

/-- `OR_u16` (43_logical_bitwise_shift.md R299). -/
def execOrU16 (s : State) : Result :=
  finish s (binary 16 (fun a b => a ||| b) s)

/-- `OR_u32` (43_logical_bitwise_shift.md R300). -/
def execOrU32 (s : State) : Result :=
  finish s (binary 32 (fun a b => a ||| b) s)

/-- `OR_u64` (43_logical_bitwise_shift.md R301). -/
def execOrU64 (s : State) : Result :=
  finish s (binary 64 (fun a b => a ||| b) s)

/-- `XOR_u8` (43_logical_bitwise_shift.md R302). -/
def execXorU8 (s : State) : Result :=
  finish s (binary 8 (fun a b => a ^^^ b) s)

/-- `XOR_u16` (43_logical_bitwise_shift.md R303). -/
def execXorU16 (s : State) : Result :=
  finish s (binary 16 (fun a b => a ^^^ b) s)

/-- `XOR_u32` (43_logical_bitwise_shift.md R304). -/
def execXorU32 (s : State) : Result :=
  finish s (binary 32 (fun a b => a ^^^ b) s)

/-- `XOR_u64` (43_logical_bitwise_shift.md R305). -/
def execXorU64 (s : State) : Result :=
  finish s (binary 64 (fun a b => a ^^^ b) s)

/-- `NOT_u8` (43_logical_bitwise_shift.md R306). -/
def execNotU8 (s : State) : Result :=
  finish s (unary 8 (fun a => ~~~a) s)

/-- `NOT_u16` (43_logical_bitwise_shift.md R307). -/
def execNotU16 (s : State) : Result :=
  finish s (unary 16 (fun a => ~~~a) s)

/-- `NOT_u32` (43_logical_bitwise_shift.md R308). -/
def execNotU32 (s : State) : Result :=
  finish s (unary 32 (fun a => ~~~a) s)

/-- `NOT_u64` (43_logical_bitwise_shift.md R309). -/
def execNotU64 (s : State) : Result :=
  finish s (unary 64 (fun a => ~~~a) s)

/-- `LSHFT_u8` (43_logical_bitwise_shift.md R310). -/
def execLshftU8 (s : State) : Result :=
  finish s (shift 8 shl s)

/-- `LSHFT_u16` (43_logical_bitwise_shift.md R311). -/
def execLshftU16 (s : State) : Result :=
  finish s (shift 16 shl s)

/-- `LSHFT_u32` (43_logical_bitwise_shift.md R312). -/
def execLshftU32 (s : State) : Result :=
  finish s (shift 32 shl s)

/-- `LSHFT_u64` (43_logical_bitwise_shift.md R313). -/
def execLshftU64 (s : State) : Result :=
  finish s (shift 64 shl s)

/-- `RSHFT_u8` (43_logical_bitwise_shift.md R314). -/
def execRshftU8 (s : State) : Result :=
  finish s (shift 8 shr s)

/-- `RSHFT_u16` (43_logical_bitwise_shift.md R315). -/
def execRshftU16 (s : State) : Result :=
  finish s (shift 16 shr s)

/-- `RSHFT_u32` (43_logical_bitwise_shift.md R316). -/
def execRshftU32 (s : State) : Result :=
  finish s (shift 32 shr s)

/-- `RSHFT_u64` (43_logical_bitwise_shift.md R317). -/
def execRshftU64 (s : State) : Result :=
  finish s (shift 64 shr s)

end Sys2Proof.Machine
end

