-- ==== Sys2Proof/Machine/StackStore.lean ====
section
/-! DEFINITION. PUSH, POP, LOAD and STORE (spec 45_stack_and_store.md). -/

namespace Sys2Proof.Machine

/-- `PUSH_uW` with the immediate of the instruction: the whole immediate is checked against `CODE_LEN` before
the first byte is pushed (45_stack_and_store.md R390 to R393; log 16). -/
def pushImm {w : Nat} (imm : BitVec w) (s : State) : Except Cause State :=
  if s.pc.toNat + w / 8 > s.codeLen then .error .codeOverrun
  else pushN imm (s.setPc (s.pc + BitVec.ofNat 64 (w / 8)))

/-- `LOAD_uW` (45_stack_and_store.md R398 to R401). -/
def load (w : Nat) (s : State) : Except Cause State := do
  let (a, s) ← popAddress w s
  let b ← storeRead a s
  push1 b s

/-- `STORE_uW`: the address is on top, the value below it (45_stack_and_store.md R382, R402 to R405). -/
def storeByteAt (w : Nat) (s : State) : Except Cause State := do
  let (a, s) ← popAddress w s
  let (v, s) ← pop1 s
  storeWrite a v s

/-- `PUSH_u8` (45_stack_and_store.md R390). -/
def execPushU8 (imm : BitVec 8) (s : State) : Result :=
  finish s (pushImm imm s)

/-- `PUSH_u16` (45_stack_and_store.md R391). -/
def execPushU16 (imm : BitVec 16) (s : State) : Result :=
  finish s (pushImm imm s)

/-- `PUSH_u32` (45_stack_and_store.md R392). -/
def execPushU32 (imm : BitVec 32) (s : State) : Result :=
  finish s (pushImm imm s)

/-- `PUSH_u64` (45_stack_and_store.md R393). -/
def execPushU64 (imm : BitVec 64) (s : State) : Result :=
  finish s (pushImm imm s)

/-- `POP_u8` (45_stack_and_store.md R394). -/
def execPopU8 (s : State) : Result :=
  finish s (dropBytes 1 s)

/-- `POP_u16` (45_stack_and_store.md R395). -/
def execPopU16 (s : State) : Result :=
  finish s (dropBytes 2 s)

/-- `POP_u32` (45_stack_and_store.md R396). -/
def execPopU32 (s : State) : Result :=
  finish s (dropBytes 4 s)

/-- `POP_u64` (45_stack_and_store.md R397). -/
def execPopU64 (s : State) : Result :=
  finish s (dropBytes 8 s)

/-- `LOAD_u8` (45_stack_and_store.md R398). -/
def execLoadU8 (s : State) : Result :=
  finish s (load 8 s)

/-- `LOAD_u16` (45_stack_and_store.md R399). -/
def execLoadU16 (s : State) : Result :=
  finish s (load 16 s)

/-- `LOAD_u32` (45_stack_and_store.md R400). -/
def execLoadU32 (s : State) : Result :=
  finish s (load 32 s)

/-- `LOAD_u64` (45_stack_and_store.md R401). -/
def execLoadU64 (s : State) : Result :=
  finish s (load 64 s)

/-- `STORE_u8` (45_stack_and_store.md R402). -/
def execStoreU8 (s : State) : Result :=
  finish s (storeByteAt 8 s)

/-- `STORE_u16` (45_stack_and_store.md R403). -/
def execStoreU16 (s : State) : Result :=
  finish s (storeByteAt 16 s)

/-- `STORE_u32` (45_stack_and_store.md R404). -/
def execStoreU32 (s : State) : Result :=
  finish s (storeByteAt 32 s)

/-- `STORE_u64` (45_stack_and_store.md R405). -/
def execStoreU64 (s : State) : Result :=
  finish s (storeByteAt 64 s)

end Sys2Proof.Machine
end

