-- ==== Sys2Proof/Machine/System.lean ====
section
/-! DEFINITION. HALT and SYSCALL (spec 46_system.md). -/

namespace Sys2Proof.Machine

/-- Pops the n arguments of a system call: the last argument comes off first, so the list is
a[1], ..., a[n] (46_system.md R412, R414). -/
def popArgs : Nat → State → Except Cause (List Word × State)
  | 0, s => .ok ([], s)
  | n + 1, s => do
    let (a, s) ← popN 64 s
    let (rest, s) ← popArgs n s
    .ok (rest ++ [a], s)

/-- The body of `SYSCALL` (46_system.md R412, R413). With the host's answer at hand the step completes;
without it the machine is left in WaitingHost (log 11). -/
def syscall (s : State) : Except Cause State := do
  let (argc, s) ← pop1 s
  if argc.toNat > 5 then .error .invalidSyscallArity
  else
    let (args, s) ← popArgs argc.toNat s
    let (num, s) ← popN 64 s
    takeAnswer (hostCall num args s)

/-- `HALT` (46_system.md R411). -/
def execHalt (s : State) : Result :=
  finish s (.ok (s.setStatus .halted))

/-- `SYSCALL` (46_system.md R412). -/
def execSyscall (s : State) : Result :=
  finish s (syscall s)

end Sys2Proof.Machine
end

