-- ==== Sys2Proof/Machine/Dispatch.lean ====
section
/-! DEFINITION. exec: one arm for each constructor of Instr, each one call of its meaning. The state is the one on
entry: the opcode byte has been fetched and pc points past it (spec 00_scope.md R13; 40_primitives.md R112). -/

namespace Sys2Proof.Machine

def exec (i : Instr) (s : State) : Host.Outcome State Fault Refusal :=
  match i with
  -- Arithmetic (41_arithmetic.md)
  | .addU8 => Sys2Proof.Machine.execAddU8 s
  | .addI8 => Sys2Proof.Machine.execAddI8 s
  | .addU16 => Sys2Proof.Machine.execAddU16 s
  | .addI16 => Sys2Proof.Machine.execAddI16 s
  | .addU32 => Sys2Proof.Machine.execAddU32 s
  | .addI32 => Sys2Proof.Machine.execAddI32 s
  | .addU64 => Sys2Proof.Machine.execAddU64 s
  | .addI64 => Sys2Proof.Machine.execAddI64 s
  | .addF => Sys2Proof.Machine.execAddF s
  | .addD => Sys2Proof.Machine.execAddD s
  | .subU8 => Sys2Proof.Machine.execSubU8 s
  | .subI8 => Sys2Proof.Machine.execSubI8 s
  | .subU16 => Sys2Proof.Machine.execSubU16 s
  | .subI16 => Sys2Proof.Machine.execSubI16 s
  | .subU32 => Sys2Proof.Machine.execSubU32 s
  | .subI32 => Sys2Proof.Machine.execSubI32 s
  | .subU64 => Sys2Proof.Machine.execSubU64 s
  | .subI64 => Sys2Proof.Machine.execSubI64 s
  | .subF => Sys2Proof.Machine.execSubF s
  | .subD => Sys2Proof.Machine.execSubD s
  | .mulU8 => Sys2Proof.Machine.execMulU8 s
  | .mulI8 => Sys2Proof.Machine.execMulI8 s
  | .mulU16 => Sys2Proof.Machine.execMulU16 s
  | .mulI16 => Sys2Proof.Machine.execMulI16 s
  | .mulU32 => Sys2Proof.Machine.execMulU32 s
  | .mulI32 => Sys2Proof.Machine.execMulI32 s
  | .mulU64 => Sys2Proof.Machine.execMulU64 s
  | .mulI64 => Sys2Proof.Machine.execMulI64 s
  | .mulF => Sys2Proof.Machine.execMulF s
  | .mulD => Sys2Proof.Machine.execMulD s
  | .divU8 => Sys2Proof.Machine.execDivU8 s
  | .divI8 => Sys2Proof.Machine.execDivI8 s
  | .divU16 => Sys2Proof.Machine.execDivU16 s
  | .divI16 => Sys2Proof.Machine.execDivI16 s
  | .divU32 => Sys2Proof.Machine.execDivU32 s
  | .divI32 => Sys2Proof.Machine.execDivI32 s
  | .divU64 => Sys2Proof.Machine.execDivU64 s
  | .divI64 => Sys2Proof.Machine.execDivI64 s
  | .divF => Sys2Proof.Machine.execDivF s
  | .divD => Sys2Proof.Machine.execDivD s
  | .modU8 => Sys2Proof.Machine.execModU8 s
  | .modI8 => Sys2Proof.Machine.execModI8 s
  | .modU16 => Sys2Proof.Machine.execModU16 s
  | .modI16 => Sys2Proof.Machine.execModI16 s
  | .modU32 => Sys2Proof.Machine.execModU32 s
  | .modI32 => Sys2Proof.Machine.execModI32 s
  | .modU64 => Sys2Proof.Machine.execModU64 s
  | .modI64 => Sys2Proof.Machine.execModI64 s
  -- Comparison (42_comparison.md)
  | .eqU8 => Sys2Proof.Machine.execEqU8 s
  | .eqI8 => Sys2Proof.Machine.execEqI8 s
  | .eqU16 => Sys2Proof.Machine.execEqU16 s
  | .eqI16 => Sys2Proof.Machine.execEqI16 s
  | .eqU32 => Sys2Proof.Machine.execEqU32 s
  | .eqI32 => Sys2Proof.Machine.execEqI32 s
  | .eqU64 => Sys2Proof.Machine.execEqU64 s
  | .eqI64 => Sys2Proof.Machine.execEqI64 s
  | .eqF => Sys2Proof.Machine.execEqF s
  | .eqD => Sys2Proof.Machine.execEqD s
  | .neqU8 => Sys2Proof.Machine.execNeqU8 s
  | .neqI8 => Sys2Proof.Machine.execNeqI8 s
  | .neqU16 => Sys2Proof.Machine.execNeqU16 s
  | .neqI16 => Sys2Proof.Machine.execNeqI16 s
  | .neqU32 => Sys2Proof.Machine.execNeqU32 s
  | .neqI32 => Sys2Proof.Machine.execNeqI32 s
  | .neqU64 => Sys2Proof.Machine.execNeqU64 s
  | .neqI64 => Sys2Proof.Machine.execNeqI64 s
  | .neqF => Sys2Proof.Machine.execNeqF s
  | .neqD => Sys2Proof.Machine.execNeqD s
  | .ltU8 => Sys2Proof.Machine.execLtU8 s
  | .ltI8 => Sys2Proof.Machine.execLtI8 s
  | .ltU16 => Sys2Proof.Machine.execLtU16 s
  | .ltI16 => Sys2Proof.Machine.execLtI16 s
  | .ltU32 => Sys2Proof.Machine.execLtU32 s
  | .ltI32 => Sys2Proof.Machine.execLtI32 s
  | .ltU64 => Sys2Proof.Machine.execLtU64 s
  | .ltI64 => Sys2Proof.Machine.execLtI64 s
  | .ltF => Sys2Proof.Machine.execLtF s
  | .ltD => Sys2Proof.Machine.execLtD s
  | .lteqU8 => Sys2Proof.Machine.execLteqU8 s
  | .lteqI8 => Sys2Proof.Machine.execLteqI8 s
  | .lteqU16 => Sys2Proof.Machine.execLteqU16 s
  | .lteqI16 => Sys2Proof.Machine.execLteqI16 s
  | .lteqU32 => Sys2Proof.Machine.execLteqU32 s
  | .lteqI32 => Sys2Proof.Machine.execLteqI32 s
  | .lteqU64 => Sys2Proof.Machine.execLteqU64 s
  | .lteqI64 => Sys2Proof.Machine.execLteqI64 s
  | .lteqF => Sys2Proof.Machine.execLteqF s
  | .lteqD => Sys2Proof.Machine.execLteqD s
  | .gtU8 => Sys2Proof.Machine.execGtU8 s
  | .gtI8 => Sys2Proof.Machine.execGtI8 s
  | .gtU16 => Sys2Proof.Machine.execGtU16 s
  | .gtI16 => Sys2Proof.Machine.execGtI16 s
  | .gtU32 => Sys2Proof.Machine.execGtU32 s
  | .gtI32 => Sys2Proof.Machine.execGtI32 s
  | .gtU64 => Sys2Proof.Machine.execGtU64 s
  | .gtI64 => Sys2Proof.Machine.execGtI64 s
  | .gtF => Sys2Proof.Machine.execGtF s
  | .gtD => Sys2Proof.Machine.execGtD s
  | .gteqU8 => Sys2Proof.Machine.execGteqU8 s
  | .gteqI8 => Sys2Proof.Machine.execGteqI8 s
  | .gteqU16 => Sys2Proof.Machine.execGteqU16 s
  | .gteqI16 => Sys2Proof.Machine.execGteqI16 s
  | .gteqU32 => Sys2Proof.Machine.execGteqU32 s
  | .gteqI32 => Sys2Proof.Machine.execGteqI32 s
  | .gteqU64 => Sys2Proof.Machine.execGteqU64 s
  | .gteqI64 => Sys2Proof.Machine.execGteqI64 s
  | .gteqF => Sys2Proof.Machine.execGteqF s
  | .gteqD => Sys2Proof.Machine.execGteqD s
  -- Logical, bitwise and shift (43_logical_bitwise_shift.md)
  | .logicalAnd => Sys2Proof.Machine.execLogicalAnd s
  | .logicalOr => Sys2Proof.Machine.execLogicalOr s
  | .logicalXor => Sys2Proof.Machine.execLogicalXor s
  | .logicalNot => Sys2Proof.Machine.execLogicalNot s
  | .andU8 => Sys2Proof.Machine.execAndU8 s
  | .andU16 => Sys2Proof.Machine.execAndU16 s
  | .andU32 => Sys2Proof.Machine.execAndU32 s
  | .andU64 => Sys2Proof.Machine.execAndU64 s
  | .orU8 => Sys2Proof.Machine.execOrU8 s
  | .orU16 => Sys2Proof.Machine.execOrU16 s
  | .orU32 => Sys2Proof.Machine.execOrU32 s
  | .orU64 => Sys2Proof.Machine.execOrU64 s
  | .xorU8 => Sys2Proof.Machine.execXorU8 s
  | .xorU16 => Sys2Proof.Machine.execXorU16 s
  | .xorU32 => Sys2Proof.Machine.execXorU32 s
  | .xorU64 => Sys2Proof.Machine.execXorU64 s
  | .notU8 => Sys2Proof.Machine.execNotU8 s
  | .notU16 => Sys2Proof.Machine.execNotU16 s
  | .notU32 => Sys2Proof.Machine.execNotU32 s
  | .notU64 => Sys2Proof.Machine.execNotU64 s
  | .lshftU8 => Sys2Proof.Machine.execLshftU8 s
  | .lshftU16 => Sys2Proof.Machine.execLshftU16 s
  | .lshftU32 => Sys2Proof.Machine.execLshftU32 s
  | .lshftU64 => Sys2Proof.Machine.execLshftU64 s
  | .rshftU8 => Sys2Proof.Machine.execRshftU8 s
  | .rshftU16 => Sys2Proof.Machine.execRshftU16 s
  | .rshftU32 => Sys2Proof.Machine.execRshftU32 s
  | .rshftU64 => Sys2Proof.Machine.execRshftU64 s
  -- Jumps (44_control_flow.md)
  | .jmpU8 => Sys2Proof.Machine.execJmpU8 s
  | .jmpU16 => Sys2Proof.Machine.execJmpU16 s
  | .jmpU32 => Sys2Proof.Machine.execJmpU32 s
  | .jmpU64 => Sys2Proof.Machine.execJmpU64 s
  | .jmpifU8 => Sys2Proof.Machine.execJmpifU8 s
  | .jmpifU16 => Sys2Proof.Machine.execJmpifU16 s
  | .jmpifU32 => Sys2Proof.Machine.execJmpifU32 s
  | .jmpifU64 => Sys2Proof.Machine.execJmpifU64 s
  -- Stack immediates, discard, store access (45_stack_and_store.md)
  | .pushU8 imm => Sys2Proof.Machine.execPushU8 imm s
  | .pushU16 imm => Sys2Proof.Machine.execPushU16 imm s
  | .pushU32 imm => Sys2Proof.Machine.execPushU32 imm s
  | .pushU64 imm => Sys2Proof.Machine.execPushU64 imm s
  | .popU8 => Sys2Proof.Machine.execPopU8 s
  | .popU16 => Sys2Proof.Machine.execPopU16 s
  | .popU32 => Sys2Proof.Machine.execPopU32 s
  | .popU64 => Sys2Proof.Machine.execPopU64 s
  | .loadU8 => Sys2Proof.Machine.execLoadU8 s
  | .loadU16 => Sys2Proof.Machine.execLoadU16 s
  | .loadU32 => Sys2Proof.Machine.execLoadU32 s
  | .loadU64 => Sys2Proof.Machine.execLoadU64 s
  | .storeU8 => Sys2Proof.Machine.execStoreU8 s
  | .storeU16 => Sys2Proof.Machine.execStoreU16 s
  | .storeU32 => Sys2Proof.Machine.execStoreU32 s
  | .storeU64 => Sys2Proof.Machine.execStoreU64 s
  -- Call, return and frame introspection (44_control_flow.md)
  | .callU8 => Sys2Proof.Machine.execCallU8 s
  | .callU16 => Sys2Proof.Machine.execCallU16 s
  | .callU32 => Sys2Proof.Machine.execCallU32 s
  | .callU64 => Sys2Proof.Machine.execCallU64 s
  | .retU8 => Sys2Proof.Machine.execRetU8 s
  | .retU16 => Sys2Proof.Machine.execRetU16 s
  | .retU32 => Sys2Proof.Machine.execRetU32 s
  | .retU64 => Sys2Proof.Machine.execRetU64 s
  | .argc => Sys2Proof.Machine.execArgc s
  | .arg => Sys2Proof.Machine.execArg s
  -- System (46_system.md)
  | .halt => Sys2Proof.Machine.execHalt s
  | .syscall => Sys2Proof.Machine.execSyscall s

end Sys2Proof.Machine
end

