-- ==== Sys2Proof/Machine/Fetch.lean ====
section
/-! DEFINITION. Fetching and decoding one instruction (spec 40_primitives.md R111, R112). -/

namespace Sys2Proof.Machine

/-- Fetches the opcode at `pc` and decodes it: `CodeOverrun` at or past `CODE_LEN` comes first, then
`InvalidOpcode` (60_exceptions.md R433). Answers the instruction and the state on its entry, `pc` past the opcode
byte. An immediate cut off by the end of the code is `CodeOverrun` (60_exceptions.md R429; log 16). -/
def fetch (s : State) : Except Cause (Instr × State) :=
  if s.pc.toNat ≥ s.codeLen then .error .codeOverrun
  else
    match decode s.params.opmap (s.code.drop s.pc.toNat) with
    | .ok (i, _) => .ok (i, s.setPc (s.pc + 1))
    | .error (.invalidOpcode _) => .error .invalidOpcode
    | .error .truncated => .error .codeOverrun
    | .error .empty => .error .codeOverrun

end Sys2Proof.Machine
end

