-- ==== Sys2Proof/Machine/Ports.lean ====
section
/-! DEFINITION. The ports of the block: the CTRL commands `reset` and `run` (spec 70_reset_and_hazards.md R460,
R463; 10_state.md R35), and what CODE and OBS show (10_state.md R36, R38). The HOST port is `hostCall` and
`takeAnswer` of Machine/Ops.lean. -/

namespace Sys2Proof.Machine

/-- `reset(STACK_CAP, STORE_CAP, CODE, CODE_LEN)`, in every status (70_reset_and_hazards.md R460): nothing of
the old life survives but what belongs to the host or to the instance (`commands`, `answers`, `requests`,
`SDIV_OVF`, `OPMAP`). The bytes of `S` and `V` are a fresh draw. -/
def resetMachine (stackCap storeCap : Nat) (code : List Byte) (s : State) : State :=
  { s with
    pc := 0
    sp := 0
    fp := 0
    status := .idle
    cause := .none
    stack := []
    store := []
    stackDraw := s.draws
    storeDraw := s.draws
    draws := s.draws + 1
    request := none
    code := code
    params := { s.params with stackCap := stackCap, storeCap := storeCap } }

/-- A run is accepted in Idle and Halted only (70_reset_and_hazards.md R463). -/
def State.acceptsRun (s : State) : Bool := decide (s.status = .idle ∨ s.status = .halted)

/-- `run(code_opt, start_pc)` (70_reset_and_hazards.md R463): `start_pc` is not range-checked; `sp`, `fp`, `S`
and `V` are not changed; in any other status than Idle and Halted the command is refused and nothing changes. -/
def runMachine (code : Option (List Byte)) (startPc : Word) (s : State) : State :=
  if s.acceptsRun then
    { s with
      code := code.getD s.code
      pc := startPc
      cause := .none
      status := .running }
  else s

/-- The sizes of a command are those the parameters admit (00_scope.md R6). -/
def Command.wellSized : Command → Bool
  | .reset stackCap storeCap code => sizeOk stackCap && sizeOk storeCap && sizeOk code.length
  | .run none _ => true
  | .run (some code) _ => sizeOk code.length

/-- Takes one command. A command whose sizes no instance can have is no command of the port and does
nothing (log 10). -/
def takeCommand (c : Command) (s : State) : State :=
  if c.wellSized then
    match c with
    | .reset stackCap storeCap code => resetMachine stackCap storeCap code s
    | .run code startPc => runMachine code startPc s
  else s

/-- What CTRL reports of a run (10_state.md R35). -/
inductive RunResult where
  | success
  | fault (c : Cause)
deriving DecidableEq, Repr

/-- The result of the run, once it has one: success when Halted, the cause when Faulted
(10_state.md R35). -/
def State.runResult? (s : State) : Option RunResult :=
  match s.status with
  | .halted => some .success
  | .faulted => some (.fault s.cause)
  | .idle => none
  | .running => none
  | .waitingHost => none

/-- The CODE port: the byte at index k, for k < CODE_LEN (10_state.md R36). -/
def State.codeByte? (s : State) (k : Nat) : Option Byte := s.code[k]?

/-- Whether OBS may read: status Idle, Halted or Faulted (10_state.md R38). -/
def State.observable (s : State) : Bool :=
  match s.status with
  | .idle => true
  | .halted => true
  | .faulted => true
  | .running => false
  | .waitingHost => false

/-- OBS: `S[i]`, i < STACK_CAP (10_state.md R38). -/
def State.obsStack? (s : State) (i : Nat) : Option Byte :=
  if s.observable && decide (i < s.params.stackCap) then some (s.stackByte i) else none

/-- OBS: `V[a]`, a < STORE_CAP (10_state.md R38). -/
def State.obsStore? (s : State) (a : Nat) : Option Byte :=
  if s.observable && decide (a < s.params.storeCap) then some (s.storeByte a) else none

/-- OBS: `(pc, sp, fp, status, cause)` (10_state.md R38). -/
def State.obsRegs? (s : State) : Option (Word × Word × Word × Status × Cause) :=
  if s.observable then some (s.pc, s.sp, s.fp, s.status, s.cause) else none

end Sys2Proof.Machine
end

