-- ==== Sys2Proof/Machine/Step.lean ====
section
/-! DEFINITION. One step of the machine (spec 40_primitives.md R112) and the state whose next step runs a given word.

The host's commands take precedence and take a step each (log 10); with none waiting, the machine acts by its
status. A step in a status that has none is a named Fault, the machine standing as it is (log 9). -/

namespace Sys2Proof.Machine

def step (s : State) : Host.Outcome State Fault Refusal :=
  match s.commands with
  | c :: rest => .next (takeCommand c { s with commands := rest })
  | [] =>
    match s.status with
    | .running =>
      match fetch s with
      | .error c => .next (raise c s)
      | .ok (i, t) => exec i t
    | .waitingHost =>
      match s.answer? with
      | none => .fault .waitingHost
      | some _ => finish s (takeAnswer s)
    | .idle => .fault .idle
    | .halted => .fault .halted
    | .faulted => .fault .faulted

/-- A list of bytes with others written over it from an index, filled with zero bytes up to the index where it is
shorter. -/
def overlay (code : List Byte) (k : Nat) (bs : List Byte) : List Byte :=
  code.take k ++ List.replicate (k - code.length) 0 ++ bs ++ code.drop (k + bs.length)

/-- The state whose very next step fetches and runs the word: the word stands in the code buffer at `pc`, a run is
on and no command waits (log 14). Everything else is as in `s`. -/
def State.withFetchWord (s : State) (nbits w : Nat) : State :=
  { s with
    code := overlay s.code s.pc.toNat (tableBytes nbits w)
    status := .running
    commands := [] }

end Sys2Proof.Machine
end

