-- ==== Sys2Proof/Safety.lean ====
section
/-! DEFINITION. The terms that claims are stated in: the live stack, what one step may change (frames), what
taking a fault leaves (spec 60_exceptions.md R430, R431), and the invariant of the machine (10_state.md R34, R27,
R28, R31, R33). -/

namespace Sys2Proof.Machine

/-! ### The stack -/

/-- The stack bytes in use, `S[0]` to `S[sp-1]`, as stack pictures draw them (00_scope.md R13;
10_state.md R24). -/
def State.live (s : State) : List Byte := s.stackBytes 0 s.sp.toNat

/-! ### Frames -/

/-- `t` is `s` but for `sp` and the stack, and of the stack only the n bytes from index k were stored to. -/
def StackStep (s t : State) (k n : Nat) : Prop :=
  t = { s with sp := t.sp, stack := t.stack } ∧
  ∀ i, i < k ∨ k + n ≤ i → t.stackByte i = s.stackByte i

/-- As `StackStep`, and free values may have been drawn. -/
def StackDrawStep (s t : State) (k n : Nat) : Prop :=
  t = { s with sp := t.sp, stack := t.stack, draws := t.draws } ∧
  ∀ i, i < k ∨ k + n ≤ i → t.stackByte i = s.stackByte i

/-! ### Faults -/

/-- `t` is the state after `raise c` in an instruction entered in `s`: status Faulted with the cause; `pc`, `sp`,
`fp` and the stack are whatever they are; everything else is as in `s`, all of the store, the code and the
parameters among it (60_exceptions.md R430, R431). -/
def FaultedFrom (s t : State) (c : Cause) : Prop :=
  t = { s with
    status := .faulted
    cause := c
    pc := t.pc
    sp := t.sp
    fp := t.fp
    stack := t.stack
    stackDraw := t.stackDraw
    draws := t.draws } ∧
  ∀ a, t.storeByte a = s.storeByte a

/-- The instruction, entered in `s`, takes the fault. -/
def TakesFault (i : Instr) (s : State) (c : Cause) : Prop :=
  ∃ t, exec i s = .next t ∧ FaultedFrom s t c

/-! ### Families of instructions -/

/-- CALL and RET, the writers of `fp` (10_state.md R25). -/
def writesFp (i : Instr) : Prop :=
  i ∈ [Instr.callU8, .callU16, .callU32, .callU64, .retU8, .retU16, .retU32, .retU64]

/-- `RET_u*`, whose restored pc is not checked (10_state.md R34). -/
def isReturn (i : Instr) : Prop := i ∈ [Instr.retU8, .retU16, .retU32, .retU64]

/-- `STORE_u*`, the writers of `V` (10_state.md R32). -/
def isStore (i : Instr) : Prop := i ∈ [Instr.storeU8, .storeU16, .storeU32, .storeU64]

/-! ### The invariant -/

/-- Every listed byte of a memory lies below its capacity. -/
def Memory.below (m : Memory) (cap : Nat) : Prop := ∀ x ∈ m, x.1 < cap

/-- What holds between steps of a machine that only the ports act on. -/
structure StateInv (s : State) : Prop where
  /-- The stack keeps its canonical form. -/
  stackWf : s.stack.wf
  /-- The store keeps its canonical form. -/
  storeWf : s.store.wf
  /-- No byte of the stack lies at or above STACK_CAP (10_state.md R31). -/
  stackBelow : s.stack.below s.params.stackCap
  /-- No byte of the store lies at or above STORE_CAP (10_state.md R32). -/
  storeBelow : s.store.below s.params.storeCap
  /-- `0 <= sp <= STACK_CAP` (10_state.md R34); after a fault `sp` is unspecified. -/
  spLe : s.status ≠ .faulted → s.sp.toNat ≤ s.params.stackCap
  /-- Every index below `sp` has been written (70_reset_and_hazards.md R461). -/
  written : s.status ≠ .faulted → ∀ i, i < s.sp.toNat → (s.stack.read? i).isSome
  /-- A request is outstanding exactly in status WaitingHost (10_state.md R33). -/
  waiting : s.status = .waitingHost ↔ s.request.isSome
  /-- The answer to an outstanding request has room on the stack (46_system.md R412). -/
  room : s.status = .waitingHost → s.sp.toNat + 8 ≤ s.params.stackCap
  /-- The outstanding request is the one the HOST port presented last, with at most five arguments
  (10_state.md R37). -/
  outstanding : ∀ r, s.request = some r → s.requests.getLast? = some r ∧ r.args.length ≤ 5
  /-- `cause` is None exactly while no fault ended the last run (10_state.md R28). -/
  causeNone : s.cause = .none ↔ s.status ≠ .faulted
  /-- `cause` never holds AllocationFailure (60_exceptions.md R432). -/
  noAllocation : s.cause ≠ .allocationFailure
  /-- The parameters are in range (00_scope.md R6). -/
  stackCapLt : s.params.stackCap < 2 ^ 64
  storeCapLt : s.params.storeCap < 2 ^ 64
  codeLenLt : s.code.length < 2 ^ 64
  /-- The opcode map satisfies the constraints on any OPMAP (30_encoding.md R88). -/
  opmapWf : OpMap.wellFormed s.params.opmap = true
  /-- The draws in use were drawn before the next one. -/
  stackDrawn : s.stackDraw < s.draws
  storeDrawn : s.storeDraw < s.draws

end Sys2Proof.Machine
end

