-- ==== Sys2Proof/Certificates/Slice0/Obligations.lean ====
section
/-! DEFINITION. The statements about the machine. The shapes of statement come first (namespace `Sys2Proof.Rules`): each
says of one instruction its opcode, the faults of its rule in their order, and that it completes with the
effect of its rule and its frame, for every state and all operands. `s` is the state on entry of the instruction: the
opcode has been fetched and pc points past it (spec 00_scope.md R13).

The hypotheses `sp <= STACK_CAP` (10_state.md R34), `STACK_CAP < 2^64` and `CODE_LEN < 2^64` (00_scope.md R6) are
clauses of the invariant `Machine.StateInv`, which has statements of its own; every live stack of n bytes or more has
the form `pre ++ operand` that the shapes ask for (`LiveStackSplits`). -/

namespace Sys2Proof.Rules

open Sys2Proof.Machine

/-! ### Shapes -/

/-- The instruction completes: the operands are gone, `out` lies on top of what was below them, and nothing else
has changed. -/
def Pushes (i : Instr) (s : State) (pre out : List Byte) : Prop :=
  ∃ t, exec i s = .next t ∧ t.live = pre ++ out ∧ StackStep s t pre.length out.length

/-- One byte long with the given opcode, under the default OPMAP. -/
def Opcode (i : Instr) (op : Byte) : Prop := encode defaultOpmap i = [op]

/-- Two operands of W bits, the right one on top, and a result f a b. -/
def BinaryRule (w r : Nat) (f : BitVec w → BitVec w → BitVec r) (i : Instr) (op : Byte) : Prop :=
  Opcode i op ∧ ∀ s : State,
    (s.sp.toNat < 2 * (w / 8) → TakesFault i s .stackUnderflow) ∧
    ∀ (pre : List Byte) (a b : BitVec w), s.live = pre ++ bytesOf a ++ bytesOf b →
      s.sp.toNat ≤ s.params.stackCap → Pushes i s pre (bytesOf (f a b))

/-- One operand of W bits and a result f a. -/
def UnaryRule (w r : Nat) (f : BitVec w → BitVec r) (i : Instr) (op : Byte) : Prop :=
  Opcode i op ∧ ∀ s : State,
    (s.sp.toNat < w / 8 → TakesFault i s .stackUnderflow) ∧
    ∀ (pre : List Byte) (a : BitVec w), s.live = pre ++ bytesOf a →
      s.sp.toNat ≤ s.params.stackCap → Pushes i s pre (bytesOf (f a))

/-- A value of W bits under an amount byte. -/
def ShiftRule (w : Nat) (f : Nat → Nat → Nat) (i : Instr) (op : Byte) : Prop :=
  Opcode i op ∧ ∀ s : State,
    (s.sp.toNat < w / 8 + 1 → TakesFault i s .stackUnderflow) ∧
    ∀ (pre : List Byte) (v : BitVec w) (n : Byte), s.live = pre ++ bytesOf v ++ [n] →
      s.sp.toNat ≤ s.params.stackCap → Pushes i s pre (bytesOf (BitVec.ofNat w (f v.toNat n.toNat)))

/-- The integer that a W-bit operand denotes (00_scope.md R9, R10). -/
def intOf {w : Nat} (signed : Bool) (v : BitVec w) : Int := if signed then v.toInt else v.toNat

/-- Integer ADD, SUB, MUL: the exact result reduced to the P bits of the promoted width. -/
def PromoteRule (w p : Nat) (signed : Bool) (f : Int → Int → Int) : Instr → Byte → Prop :=
  BinaryRule w p fun a b => BitVec.ofInt p (f (intOf signed a) (intOf signed b))

/-- Unsigned DIV or MOD. -/
def UnsignedDivRule (w : Nat) (f : Nat → Nat → Nat) (i : Instr) (op : Byte) : Prop :=
  Opcode i op ∧ ∀ s : State,
    (s.sp.toNat < 2 * (w / 8) → TakesFault i s .stackUnderflow) ∧
    ∀ (pre : List Byte) (a b : BitVec w), s.live = pre ++ bytesOf a ++ bytesOf b →
      (b = 0 → TakesFault i s .divisionByZero) ∧
      (b ≠ 0 → s.sp.toNat ≤ s.params.stackCap → Pushes i s pre (bytesOf (BitVec.ofNat w (f a.toNat b.toNat))))

/-- The quotient truncated toward zero: the quotient of the magnitudes, negative when the signs differ
(40_primitives.md R116). -/
def truncQuot (x y : Int) : Int := x.sign * y.sign * (x.natAbs / y.natAbs : Nat)

/-- The remainder that goes with `truncQuot` (40_primitives.md R116). -/
def truncRem (x y : Int) : Int := x - y * truncQuot x y

/-- The pair -2^(W-1), -1. -/
def OverflowPair {w : Nat} (a b : BitVec w) : Prop := a.toInt = -(2 : Int) ^ (w - 1) ∧ b.toInt = -1

/-- Signed DIV or MOD, under either value of SDIV_OVF (41_arithmetic.md R134). -/
def SignedDivRule (w : Nat) (f : Int → Int → Int) (i : Instr) (op : Byte) : Prop :=
  Opcode i op ∧ ∀ s : State,
    (s.sp.toNat < 2 * (w / 8) → TakesFault i s .stackUnderflow) ∧
    ∀ (pre : List Byte) (a b : BitVec w), s.live = pre ++ bytesOf a ++ bytesOf b →
      (b = 0 → TakesFault i s .divisionByZero) ∧
      (OverflowPair a b → s.params.sdivOvf = .fault → TakesFault i s .divisionByZero) ∧
      (b ≠ 0 → (OverflowPair a b → s.params.sdivOvf = .wrap) → s.sp.toNat ≤ s.params.stackCap →
        Pushes i s pre (bytesOf (BitVec.ofInt w (f a.toInt b.toInt))))

/-- A comparison whose outcome is the byte 01 where P holds and 00 where it does not. -/
def CompareRule (w : Nat) (P : BitVec w → BitVec w → Prop) (i : Instr) (op : Byte) : Prop :=
  Opcode i op ∧ ∀ s : State,
    (s.sp.toNat < 2 * (w / 8) → TakesFault i s .stackUnderflow) ∧
    ∀ (pre : List Byte) (a b : BitVec w), s.live = pre ++ bytesOf a ++ bytesOf b →
      s.sp.toNat ≤ s.params.stackCap →
      (P a b → Pushes i s pre [0x01]) ∧ (¬ P a b → Pushes i s pre [0x00])

/-! ### IEEE 754 data, as rational numbers -/

/-- The exponent field of a pattern. -/
def expField (fmt : FloatFormat) (x : Nat) : Nat := x / 2 ^ fmt.fracBits % 2 ^ fmt.expBits

/-- The fraction field of a pattern. -/
def fracField (fmt : FloatFormat) (x : Nat) : Nat := x % 2 ^ fmt.fracBits

/-- The sign bit of a pattern is set. -/
def signSet (fmt : FloatFormat) (x : Nat) : Prop := x / 2 ^ (fmt.expBits + fmt.fracBits) % 2 = 1

/-- A NaN of the format: exponent all ones, fraction nonzero (40_primitives.md R118). -/
def IsNan (fmt : FloatFormat) (x : Nat) : Prop := expField fmt x = 2 ^ fmt.expBits - 1 ∧ fracField fmt x ≠ 0

/-- An infinity. -/
def IsInf (fmt : FloatFormat) (x : Nat) : Prop := expField fmt x = 2 ^ fmt.expBits - 1 ∧ fracField fmt x = 0

/-- A finite number. -/
def IsFinite (fmt : FloatFormat) (x : Nat) : Prop := expField fmt x ≠ 2 ^ fmt.expBits - 1

/-- The bias of the exponent. -/
def bias (fmt : FloatFormat) : Int := 2 ^ (fmt.expBits - 1) - 1

/-- The number that a finite pattern spells: subnormal when the exponent field is zero. -/
def ratOf (fmt : FloatFormat) (x : Nat) : ℚ :=
  (-1) ^ (x / 2 ^ (fmt.expBits + fmt.fracBits)) *
    (if expField fmt x = 0 then (fracField fmt x : ℚ) * 2 ^ (1 - bias fmt - (fmt.fracBits : Int))
     else ((2 ^ fmt.fracBits + fracField fmt x : Nat) : ℚ) *
       2 ^ ((expField fmt x : Int) - bias fmt - (fmt.fracBits : Int)))

/-- `x` comes below `y` as IEEE 754 values: neither is a NaN, -∞ is below every other value and +∞
above (40_primitives.md R119). -/
def Below (fmt : FloatFormat) (x y : Nat) : Prop :=
  ¬ IsNan fmt x ∧ ¬ IsNan fmt y ∧
  ((IsFinite fmt x ∧ IsFinite fmt y ∧ ratOf fmt x < ratOf fmt y) ∨
   (IsInf fmt x ∧ signSet fmt x ∧ ¬ (IsInf fmt y ∧ signSet fmt y)) ∨
   (IsInf fmt y ∧ ¬ signSet fmt y ∧ ¬ (IsInf fmt x ∧ ¬ signSet fmt x)))

/-- `x` and `y` are the same IEEE 754 value; -0 and +0 are (40_primitives.md R119). -/
def SameValue (fmt : FloatFormat) (x y : Nat) : Prop :=
  (IsFinite fmt x ∧ IsFinite fmt y ∧ ratOf fmt x = ratOf fmt y) ∨
  (IsInf fmt x ∧ IsInf fmt y ∧ (signSet fmt x ↔ signSet fmt y))

/-- `r` is q rounded to nearest with ties to even, with gradual underflow (40_primitives.md R118): no finite
pattern is nearer to q, of two equally near the one taken is even, and from half a unit past the greatest
finite number on the result is infinite. A zero result of a nonzero q keeps the sign of q; `negZero` is the
sign when q is zero. -/
def RoundsTo (fmt : FloatFormat) (q : ℚ) (negZero : Prop) (r : Nat) : Prop :=
  r < 2 ^ (1 + fmt.expBits + fmt.fracBits) ∧
  (signSet fmt r ↔ q < 0 ∨ (q = 0 ∧ negZero)) ∧
  (|q| < (2 - 2 ^ (-(fmt.fracBits : Int) - 1)) * 2 ^ bias fmt →
    IsFinite fmt r ∧
    ∀ z, z < 2 ^ (1 + fmt.expBits + fmt.fracBits) → IsFinite fmt z →
      |ratOf fmt r - q| ≤ |ratOf fmt z - q| ∧
      (|ratOf fmt r - q| = |ratOf fmt z - q| → ratOf fmt z = ratOf fmt r ∨ r % 2 = 0)) ∧
  ((2 - 2 ^ (-(fmt.fracBits : Int) - 1)) * 2 ^ bias fmt ≤ |q| → IsInf fmt r)

/-- An infinity of a sign. -/
def InfOfSign (fmt : FloatFormat) (neg : Prop) (r : Nat) : Prop :=
  r < 2 ^ (1 + fmt.expBits + fmt.fracBits) ∧ IsInf fmt r ∧ (signSet fmt r ↔ neg)

/-- Patterns of the format. -/
def Pattern (fmt : FloatFormat) (x : Nat) : Prop := x < 2 ^ (1 + fmt.expBits + fmt.fracBits)

/-- The signs of x and y differ. -/
def SignsDiffer (fmt : FloatFormat) (x y : Nat) : Prop := ¬ (signSet fmt x ↔ signSet fmt y)

/-- A zero, of either sign. -/
def IsZero (fmt : FloatFormat) (x : Nat) : Prop := expField fmt x = 0 ∧ fracField fmt x = 0

/-- IEEE 754 addition of patterns; `none` is a NaN (40_primitives.md R118). -/
def AddsAsIeee (fmt : FloatFormat) (op : Nat → Nat → Option Nat) : Prop :=
  ∀ x y, Pattern fmt x → Pattern fmt y →
    (op x y = none ↔ IsNan fmt x ∨ IsNan fmt y ∨ (IsInf fmt x ∧ IsInf fmt y ∧ SignsDiffer fmt x y)) ∧
    ∀ r, op x y = some r →
      (IsInf fmt x → InfOfSign fmt (signSet fmt x) r) ∧
      (IsInf fmt y → InfOfSign fmt (signSet fmt y) r) ∧
      (IsFinite fmt x → IsFinite fmt y →
        RoundsTo fmt (ratOf fmt x + ratOf fmt y) (signSet fmt x ∧ signSet fmt y) r)

/-- IEEE 754 subtraction of patterns; `none` is a NaN (40_primitives.md R118). -/
def SubtractsAsIeee (fmt : FloatFormat) (op : Nat → Nat → Option Nat) : Prop :=
  ∀ x y, Pattern fmt x → Pattern fmt y →
    (op x y = none ↔ IsNan fmt x ∨ IsNan fmt y ∨ (IsInf fmt x ∧ IsInf fmt y ∧ ¬ SignsDiffer fmt x y)) ∧
    ∀ r, op x y = some r →
      (IsInf fmt x → InfOfSign fmt (signSet fmt x) r) ∧
      (IsInf fmt y → InfOfSign fmt (¬ signSet fmt y) r) ∧
      (IsFinite fmt x → IsFinite fmt y →
        RoundsTo fmt (ratOf fmt x - ratOf fmt y) (signSet fmt x ∧ ¬ signSet fmt y) r)

/-- IEEE 754 multiplication of patterns; `none` is a NaN (40_primitives.md R118). -/
def MultipliesAsIeee (fmt : FloatFormat) (op : Nat → Nat → Option Nat) : Prop :=
  ∀ x y, Pattern fmt x → Pattern fmt y →
    (op x y = none ↔ IsNan fmt x ∨ IsNan fmt y ∨ (IsInf fmt x ∧ IsZero fmt y) ∨ (IsZero fmt x ∧ IsInf fmt y)) ∧
    ∀ r, op x y = some r →
      (IsInf fmt x ∨ IsInf fmt y → InfOfSign fmt (SignsDiffer fmt x y) r) ∧
      (IsFinite fmt x → IsFinite fmt y →
        RoundsTo fmt (ratOf fmt x * ratOf fmt y) (SignsDiffer fmt x y) r)

/-- IEEE 754 division of patterns; `none` is a NaN (40_primitives.md R118). -/
def DividesAsIeee (fmt : FloatFormat) (op : Nat → Nat → Option Nat) : Prop :=
  ∀ x y, Pattern fmt x → Pattern fmt y →
    (op x y = none ↔ IsNan fmt x ∨ IsNan fmt y ∨ (IsInf fmt x ∧ IsInf fmt y) ∨ (IsZero fmt x ∧ IsZero fmt y)) ∧
    ∀ r, op x y = some r →
      (IsInf fmt x ∨ IsZero fmt y → InfOfSign fmt (SignsDiffer fmt x y) r) ∧
      (IsInf fmt y → RoundsTo fmt 0 (SignsDiffer fmt x y) r) ∧
      (IsFinite fmt x → IsFinite fmt y → ¬ IsZero fmt y →
        RoundsTo fmt (ratOf fmt x / ratOf fmt y) (SignsDiffer fmt x y) r)

/-- A floating-point operation of the model on patterns. -/
def onNats (fmt : FloatFormat) (op : FloatFormat → FloatVal → FloatVal → Option Nat) (x y : Nat) : Option Nat :=
  op fmt (unpack fmt x) (unpack fmt y)

/-- A floating-point instruction: its result is FNUM's at the next draw. That is the pattern IEEE 754 gives; where
it gives a NaN, some NaN of the format, the one that the parameter gives if it gives one, and then a free value has
been drawn. -/
def FloatRule (w : Nat) (fmt : FloatFormat) (op : FloatOp) (i : Instr) (opcode : Byte) : Prop :=
  Opcode i opcode ∧ ∀ s : State,
    (s.sp.toNat < 2 * (w / 8) → TakesFault i s .stackUnderflow) ∧
    ∀ (pre : List Byte) (a b : BitVec w), s.live = pre ++ bytesOf a ++ bytesOf b →
      s.sp.toNat ≤ s.params.stackCap →
      ∃ t : State, exec i s = .next t ∧ t.live = pre ++ bytesOf (fnum fmt op s.draws a b) ∧
        StackDrawStep s t pre.length (w / 8) ∧
        (∀ x, onNats fmt (onVals op) a.toNat b.toNat = some x →
          (fnum fmt op s.draws a b).toNat = x ∧ t.draws = s.draws) ∧
        (onNats fmt (onVals op) a.toNat b.toNat = none →
          IsNan fmt (fnum fmt op s.draws a b).toNat ∧ t.draws = s.draws + 1 ∧
          (IsNan fmt (Config.fnum op w s.draws a b).toNat →
            fnum fmt op s.draws a b = Config.fnum op w s.draws a b))

/-! ### Control flow -/

/-- `JMP_uW` (44_control_flow.md R340 to R343). -/
def JumpRule (w : Nat) (i : Instr) (op : Byte) : Prop :=
  Opcode i op ∧ ∀ s : State,
    (s.sp.toNat < w / 8 → TakesFault i s .stackUnderflow) ∧
    ∀ (pre : List Byte) (t : BitVec w), s.live = pre ++ bytesOf t →
      (s.codeLen ≤ t.toNat → TakesFault i s .invalidJumpTarget) ∧
      (t.toNat < s.codeLen →
        exec i s = .next { s with pc := BitVec.ofNat 64 t.toNat, sp := BitVec.ofNat 64 pre.length })

/-- `JMPIF_uW` (44_control_flow.md R344 to R347). -/
def JumpIfRule (w : Nat) (i : Instr) (op : Byte) : Prop :=
  Opcode i op ∧ ∀ s : State,
    (s.sp.toNat < w / 8 + 1 → TakesFault i s .stackUnderflow) ∧
    ∀ (pre : List Byte) (c : Byte) (t : BitVec w), s.live = pre ++ [c] ++ bytesOf t →
      (c = 0 → exec i s = .next { s with sp := BitVec.ofNat 64 pre.length }) ∧
      (c ≠ 0 → s.codeLen ≤ t.toNat → TakesFault i s .invalidJumpTarget) ∧
      (c ≠ 0 → t.toNat < s.codeLen →
        exec i s = .next { s with pc := BitVec.ofNat 64 t.toNat, sp := BitVec.ofNat 64 pre.length })

/-- `CALL_uW`: the frame of 44_control_flow.md R331 is laid down, saved pc below saved fp (R337, R348 to R351). -/
def CallRule (w : Nat) (i : Instr) (op : Byte) : Prop :=
  Opcode i op ∧ ∀ s : State,
    (s.sp.toNat < w / 8 → TakesFault i s .stackUnderflow) ∧
    ∀ (pre : List Byte) (t : BitVec w), s.live = pre ++ bytesOf t →
      s.params.stackCap < 2 ^ 64 →
      (s.params.stackCap < pre.length + 16 → TakesFault i s .stackOverflow) ∧
      (pre.length + 16 ≤ s.params.stackCap →
        (s.codeLen ≤ t.toNat → TakesFault i s .invalidJumpTarget) ∧
        (t.toNat < s.codeLen →
          ∃ u, exec i s = .next u ∧ u.live = pre ++ bytesOf s.pc ++ bytesOf s.fp ∧
            u = { s with
              pc := BitVec.ofNat 64 t.toNat
              sp := BitVec.ofNat 64 (pre.length + 16)
              fp := BitVec.ofNat 64 (pre.length + 16)
              stack := u.stack } ∧
            ∀ k, k < pre.length ∨ pre.length + 16 ≤ k → u.stackByte k = s.stackByte k))

/-- `RET_uW` (44_control_flow.md R336, R352 to R355): the frame, the argument count and the arguments go, the return value
stays. -/
def ReturnRule (w : Nat) (i : Instr) (op : Byte) : Prop :=
  Opcode i op ∧ ∀ s : State,
    (s.sp.toNat < w / 8 → TakesFault i s .stackUnderflow) ∧
    (w / 8 ≤ s.sp.toNat → s.sp.toNat - w / 8 < s.fp.toNat → TakesFault i s .stackUnderflow) ∧
    (s.fp.toNat < 17 → TakesFault i s .stackUnderflow) ∧
    (17 ≤ s.fp.toNat → s.fp.toNat - 17 < (s.stackByte (s.fp.toNat - 17)).toNat → TakesFault i s .stackUnderflow) ∧
    ∀ (pre args locals : List Byte) (argc : Byte) (savedPc savedFp : Word) (v : BitVec w),
      s.live = pre ++ args ++ [argc] ++ bytesOf savedPc ++ bytesOf savedFp ++ locals ++ bytesOf v →
      args.length = argc.toNat → s.fp.toNat = pre.length + args.length + 17 →
      s.sp.toNat ≤ s.params.stackCap →
      ∃ u, exec i s = .next u ∧ u.live = pre ++ bytesOf v ∧
        u = { s with
          pc := savedPc
          sp := BitVec.ofNat 64 (pre.length + w / 8)
          fp := savedFp
          stack := u.stack } ∧
        ∀ k, k < pre.length ∨ pre.length + w / 8 ≤ k → u.stackByte k = s.stackByte k

/-- A call with its arguments, then any callee that leaves `fp` and the bytes below it, then a return: the net effect of
44_control_flow.md R338. `t` is the state after the call, `u` the state on entry of the return. -/
def CallReturnRule (w r : Nat) (callInstr retInstr : Instr) : Prop :=
  ∀ (s : State) (pre args : List Byte) (argc : Byte) (target : BitVec w),
    s.live = pre ++ args ++ [argc] ++ bytesOf target → args.length = argc.toNat →
    pre.length + args.length + 17 ≤ s.params.stackCap → s.params.stackCap < 2 ^ 64 → target.toNat < s.codeLen →
    ∃ t, exec callInstr s = .next t ∧ t.pc.toNat = target.toNat ∧
      ∀ (u : State) (locals : List Byte) (v : BitVec r),
        u.fp = t.fp → u.live = t.live ++ locals ++ bytesOf v → u.sp.toNat ≤ u.params.stackCap →
        ∃ x, exec retInstr u = .next x ∧ x.live = pre ++ bytesOf v ∧ x.sp.toNat = pre.length + r / 8 ∧
          x.fp = s.fp ∧ x.pc = s.pc ∧ ∀ k, k < pre.length → x.stackByte k = s.stackByte k

/-! ### Stack immediates, discard, store access -/

/-- `PUSH_uW` on entry, with the immediate of the instruction (45_stack_and_store.md R390 to R393). -/
def PushRule (w : Nat) (mk : BitVec w → Instr) : Prop :=
  ∀ (s : State) (imm : BitVec w),
    (s.codeLen < s.pc.toNat + w / 8 → TakesFault (mk imm) s .codeOverrun) ∧
    (s.pc.toNat + w / 8 ≤ s.codeLen → s.params.stackCap < s.sp.toNat + w / 8 →
      TakesFault (mk imm) s .stackOverflow) ∧
    (s.pc.toNat + w / 8 ≤ s.codeLen → s.codeLen < 2 ^ 64 →
      s.sp.toNat + w / 8 ≤ s.params.stackCap → s.params.stackCap < 2 ^ 64 →
      ∃ t, exec (mk imm) s = .next t ∧ t.live = s.live ++ bytesOf imm ∧
        t.pc.toNat = s.pc.toNat + w / 8 ∧
        t = { s with pc := t.pc, sp := t.sp, stack := t.stack } ∧
        ∀ k, k < s.sp.toNat ∨ s.sp.toNat + w / 8 ≤ k → t.stackByte k = s.stackByte k)

/-- A whole step at the opcode of a `PUSH_uW` under the default OPMAP: the immediate bytes are copied from the code in
code order (45_stack_and_store.md R390 to R393; 20_memory.md R54; 30_encoding.md R83). -/
def PushStepRule (n : Nat) (op : Byte) : Prop :=
  ∀ (s : State) (bs : List Byte),
    s.status = .running → s.commands = [] → s.params.opmap = defaultOpmap → s.codeLen < 2 ^ 64 →
    s.params.stackCap < 2 ^ 64 →
    s.code.drop s.pc.toNat = op :: bs →
    (bs.length < n → ∃ t, step s = .next t ∧ FaultedFrom s t .codeOverrun) ∧
    (n ≤ bs.length → s.params.stackCap < s.sp.toNat + n → ∃ t, step s = .next t ∧ FaultedFrom s t .stackOverflow) ∧
    (n ≤ bs.length → s.sp.toNat + n ≤ s.params.stackCap →
      ∃ t, step s = .next t ∧ t.live = s.live ++ bs.take n ∧ t.pc.toNat = s.pc.toNat + 1 + n ∧
        t = { s with pc := t.pc, sp := t.sp, stack := t.stack } ∧
        ∀ k, k < s.sp.toNat ∨ s.sp.toNat + n ≤ k → t.stackByte k = s.stackByte k)

/-- `POP_uW`: n bytes discarded unread (45_stack_and_store.md R394 to R397). -/
def PopRule (n : Nat) (i : Instr) (op : Byte) : Prop :=
  Opcode i op ∧ ∀ s : State,
    (s.sp.toNat < n → TakesFault i s .stackUnderflow) ∧
    (n ≤ s.sp.toNat → exec i s = .next { s with sp := BitVec.ofNat 64 (s.sp.toNat - n) })

/-- `LOAD_uW` (45_stack_and_store.md R398 to R401). -/
def LoadRule (w : Nat) (i : Instr) (op : Byte) : Prop :=
  Opcode i op ∧ ∀ s : State,
    (s.sp.toNat < w / 8 → TakesFault i s .stackUnderflow) ∧
    ∀ (pre : List Byte) (a : BitVec w), s.live = pre ++ bytesOf a →
      (s.params.storeCap ≤ a.toNat → TakesFault i s .outOfBounds) ∧
      (a.toNat < s.params.storeCap → s.sp.toNat ≤ s.params.stackCap → Pushes i s pre [s.storeByte a.toNat])

/-- `STORE_uW`: the address on top, the value byte below it (45_stack_and_store.md R402 to R405). -/
def StoreRule (w : Nat) (i : Instr) (op : Byte) : Prop :=
  Opcode i op ∧ ∀ s : State,
    (s.sp.toNat < w / 8 + 1 → TakesFault i s .stackUnderflow) ∧
    ∀ (pre : List Byte) (v : Byte) (a : BitVec w), s.live = pre ++ [v] ++ bytesOf a →
      (s.params.storeCap ≤ a.toNat → TakesFault i s .outOfBounds) ∧
      (a.toNat < s.params.storeCap →
        ∃ t, exec i s = .next t ∧
          t = { s with sp := BitVec.ofNat 64 pre.length, store := t.store } ∧
          t.storeByte a.toNat = v ∧ ∀ k, k ≠ a.toNat → t.storeByte k = s.storeByte k)

/-! ### Families of instructions -/

/-- The causes each instruction can raise, the rows of 60_exceptions.md R434. -/
def causesOf : Instr → List Cause
  | .divU8 | .divI8 | .divU16 | .divI16 | .divU32 | .divI32 | .divU64 | .divI64
  | .modU8 | .modI8 | .modU16 | .modI16 | .modU32 | .modI32 | .modU64 | .modI64 =>
    [.stackUnderflow, .divisionByZero]
  | .jmpU8 | .jmpU16 | .jmpU32 | .jmpU64 | .jmpifU8 | .jmpifU16 | .jmpifU32 | .jmpifU64 =>
    [.stackUnderflow, .invalidJumpTarget]
  | .pushU8 _ | .pushU16 _ | .pushU32 _ | .pushU64 _ => [.codeOverrun, .stackOverflow]
  | .loadU8 | .loadU16 | .loadU32 | .loadU64 | .storeU8 | .storeU16 | .storeU32 | .storeU64 =>
    [.stackUnderflow, .outOfBounds]
  | .callU8 | .callU16 | .callU32 | .callU64 => [.stackUnderflow, .stackOverflow, .invalidJumpTarget]
  | .argc => [.stackUnderflow, .stackOverflow]
  | .halt => []
  | .syscall => [.stackUnderflow, .invalidSyscallArity]
  | _ => [.stackUnderflow]

/-- Two states that differ only in stack bytes at or above `sp` (10_state.md R31). -/
def SameButDeadStack (s t : State) : Prop :=
  t = { s with stack := t.stack, stackDraw := t.stackDraw } ∧
  ∀ k, k < s.sp.toNat → t.stackByte k = s.stackByte k

end Sys2Proof.Rules

open Sys2Proof Sys2Proof.Machine Sys2Proof.Rules

/-- Decode reads back what encode writes, for every instruction, immediate and opcode map. (spec R81, R82, R83,
R84, R88) -/
def Obligations.DecodeReadsBackEncode : Prop :=
  ∀ (m : List Byte) (i : Instr) (rest : List Byte), OpMap.wellFormed m = true → i.wellFormed = true →
    decode m (encode m i ++ rest) = .ok (i, rest)

/-- Bytes that decode to an instruction are exactly its encoding. (spec R80, R84, R88) -/
def Obligations.DecodedBytesAreTheEncoding : Prop :=
  ∀ (m bs rest : List Byte) (i : Instr), OpMap.wellFormed m = true →
    decode m bs = .ok (i, rest) → bs = encode m i ++ rest

/-- Every instruction is one byte long but the four PUSH forms, of 2, 3, 5 and 9 bytes. (spec R81, R82, R84) -/
def Obligations.LengthIsSetByTheOpcode : Prop :=
  (∀ (m : List Byte) (i : Instr), (encode m i).length = lengthOf i) ∧
  (∀ (m : List Byte) (i j : Instr), OpMap.wellFormed m = true → (encode m i).head? = (encode m j).head? →
    lengthOf i = lengthOf j) ∧
  (∀ imm, lengthOf (.pushU8 imm) = 2) ∧ (∀ imm, lengthOf (.pushU16 imm) = 3) ∧
  (∀ imm, lengthOf (.pushU32 imm) = 5) ∧ (∀ imm, lengthOf (.pushU64 imm) = 9) ∧
  (∀ i : Instr, (∀ imm, i ≠ .pushU8 imm) → (∀ imm, i ≠ .pushU16 imm) → (∀ imm, i ≠ .pushU32 imm) →
    (∀ imm, i ≠ .pushU64 imm) → lengthOf i = 1)

/-- A byte outside the image of OPMAP is no instruction: 0x00 and 0xAD to 0xFF by default. (spec R87, R88, R89)
-/
def Obligations.BytesOutsideTheMapAreInvalid : Prop :=
  (∀ (m bs : List Byte) (b : Byte), OpMap.wellFormed m = true → b ∉ m → decode m (b :: bs) = .error (.invalidOpcode b)) ∧
  OpMap.wellFormed defaultOpmap = true ∧
  ∀ b : Byte, b ∈ defaultOpmap ↔ 1 ≤ b.toNat ∧ b.toNat ≤ 0xAC

/-- Words written out from the table decode to their instructions. (spec 30_encoding.md R87, R82) Under the
default OPMAP, which the model takes at reset (log 1). -/
def Obligations.WrittenWordsDecode : Prop :=
  decode defaultOpmap [0x01] = .ok (.addU8, []) ∧
  decode defaultOpmap [0x48] = .ok (.ltI16, []) ∧
  decode defaultOpmap [0x6F] = .ok (.logicalXor, []) ∧
  decode defaultOpmap [0x88] = .ok (.rshftU64, []) ∧
  decode defaultOpmap [0x8D] = .ok (.jmpifU8, []) ∧
  decode defaultOpmap [0x92, 0x01, 0x2C] = .ok (.pushU16 0x012C, []) ∧
  decode defaultOpmap [0xA0] = .ok (.storeU64, []) ∧
  decode defaultOpmap [0xA2] = .ok (.callU16, []) ∧
  decode defaultOpmap [0xA5] = .ok (.retU8, []) ∧
  decode defaultOpmap [0xAA] = .ok (.arg, []) ∧
  decode defaultOpmap [0xAC] = .ok (.syscall, [])

/-- A value on the stack has its most significant byte at the lowest index. (spec 20_memory.md R52) -/
def Obligations.StackValuesAreBigEndian : Prop :=
  ∀ w ∈ [8, 16, 32, 64], ∀ v : BitVec w,
    (bytesOf v).length = w / 8 ∧
    ∀ j, j < w / 8 → (bytesOf v)[j]? = some (v.extractLsb' (w - 8 - 8 * j) 8)

/-- The codec functions are mutual inverses on every bit pattern. (spec R100, R101, R102, R103) -/
def Obligations.CodecUnitRoundTrips : Prop :=
  (∀ x : BitVec 32, ser32 x = [x.extractLsb 31 24, x.extractLsb 23 16, x.extractLsb 15 8, x.extractLsb 7 0]) ∧
  (∀ b0 b1 b2 b3 : Byte, deser32 b0 b1 b2 b3 = b0 ++ b1 ++ b2 ++ b3 ∧
    ser32 (deser32 b0 b1 b2 b3) = [b0, b1, b2, b3]) ∧
  (∀ x : BitVec 32, ∃ b0 b1 b2 b3, ser32 x = [b0, b1, b2, b3] ∧ deser32 b0 b1 b2 b3 = x) ∧
  (∀ x : BitVec 64, ser64 x = [x.extractLsb 63 56, x.extractLsb 55 48, x.extractLsb 47 40, x.extractLsb 39 32,
    x.extractLsb 31 24, x.extractLsb 23 16, x.extractLsb 15 8, x.extractLsb 7 0]) ∧
  (∀ b0 b1 b2 b3 b4 b5 b6 b7 : Byte,
    deser64 b0 b1 b2 b3 b4 b5 b6 b7 = b0 ++ b1 ++ b2 ++ b3 ++ b4 ++ b5 ++ b6 ++ b7 ∧
    ser64 (deser64 b0 b1 b2 b3 b4 b5 b6 b7) = [b0, b1, b2, b3, b4, b5, b6, b7]) ∧
  (∀ x : BitVec 64, ∃ b0 b1 b2 b3 b4 b5 b6 b7, ser64 x = [b0, b1, b2, b3, b4, b5, b6, b7] ∧
    deser64 b0 b1 b2 b3 b4 b5 b6 b7 = x)

/-- Every stack with enough bytes is a prefix with one operand on top. (spec 20_memory.md R52, 40_primitives.md
R107) -/
def Obligations.LiveStackSplits : Prop :=
  ∀ w ∈ [8, 16, 32, 64], ∀ s : State, w / 8 ≤ s.sp.toNat →
    ∃! x : List Byte × BitVec w, s.live = x.1 ++ bytesOf x.2

/-- PushN then PopN returns the value and restores sp; the stack below is unchanged. (spec R113) -/
def Obligations.PushThenPopGivesTheValueBack : Prop :=
  (∀ w ∈ [8, 16, 32, 64], ∀ (s : State) (v : BitVec w),
    s.sp.toNat + w / 8 ≤ s.params.stackCap → s.params.stackCap < 2 ^ 64 →
    ∃ t u, pushN v s = .ok t ∧ popN w t = .ok (v, u) ∧ u.sp = s.sp ∧
      ∀ k, k < s.sp.toNat → u.stackByte k = s.stackByte k) ∧
  (∀ (s : State) (x : BitVec 32), s.sp.toNat + 4 ≤ s.params.stackCap → s.params.stackCap < 2 ^ 64 →
    ∃ t u, pushF32 x s = .ok t ∧ popF32 t = .ok (x, u) ∧ u.sp = s.sp ∧
      ∀ k, k < s.sp.toNat → u.stackByte k = s.stackByte k) ∧
  (∀ (s : State) (x : BitVec 64), s.sp.toNat + 8 ≤ s.params.stackCap → s.params.stackCap < 2 ^ 64 →
    ∃ t u, pushF64 x s = .ok t ∧ popF64 t = .ok (x, u) ∧ u.sp = s.sp ∧
      ∀ k, k < s.sp.toNat → u.stackByte k = s.stackByte k)

/-- Pushing or popping byte by byte is the single-check form. (spec R104, R105, R106, R107) The single check is
the model's choice of the two forms the spec allows (log 15). -/
def Obligations.ByteLoopsAreTheSingleCheck : Prop :=
  (∀ (bs : List Byte) (s : State), s.sp.toNat ≤ s.params.stackCap → s.params.stackCap < 2 ^ 64 →
    pushLoop bs s = pushBytes bs s) ∧
  (∀ (n : Nat) (s : State), popLoop n s = popBytes n s)

/-- ADD on the eight integer types: the exact sum in the promoted width. (spec R140, R141, R142, R143, R144,
R145, R146, R147) -/
def Obligations.IntegerAddsPromote : Prop :=
  PromoteRule 8 16 false (fun x y => x + y) .addU8 0x01 ∧
  PromoteRule 8 16 true (fun x y => x + y) .addI8 0x02 ∧
  PromoteRule 16 32 false (fun x y => x + y) .addU16 0x03 ∧
  PromoteRule 16 32 true (fun x y => x + y) .addI16 0x04 ∧
  PromoteRule 32 64 false (fun x y => x + y) .addU32 0x05 ∧
  PromoteRule 32 64 true (fun x y => x + y) .addI32 0x06 ∧
  PromoteRule 64 64 false (fun x y => x + y) .addU64 0x07 ∧
  PromoteRule 64 64 true (fun x y => x + y) .addI64 0x08

/-- SUB on the eight integer types: the exact difference in the promoted width. (spec R150, R151, R152, R153,
R154, R155, R156, R157) -/
def Obligations.IntegerSubtractsPromote : Prop :=
  PromoteRule 8 16 false (fun x y => x - y) .subU8 0x0B ∧
  PromoteRule 8 16 true (fun x y => x - y) .subI8 0x0C ∧
  PromoteRule 16 32 false (fun x y => x - y) .subU16 0x0D ∧
  PromoteRule 16 32 true (fun x y => x - y) .subI16 0x0E ∧
  PromoteRule 32 64 false (fun x y => x - y) .subU32 0x0F ∧
  PromoteRule 32 64 true (fun x y => x - y) .subI32 0x10 ∧
  PromoteRule 64 64 false (fun x y => x - y) .subU64 0x11 ∧
  PromoteRule 64 64 true (fun x y => x - y) .subI64 0x12

/-- MUL on the eight integer types: the exact product in the promoted width. (spec R160, R161, R162, R163, R164,
R165, R166, R167) -/
def Obligations.IntegerMultipliesPromote : Prop :=
  PromoteRule 8 16 false (fun x y => x * y) .mulU8 0x15 ∧
  PromoteRule 8 16 true (fun x y => x * y) .mulI8 0x16 ∧
  PromoteRule 16 32 false (fun x y => x * y) .mulU16 0x17 ∧
  PromoteRule 16 32 true (fun x y => x * y) .mulI16 0x18 ∧
  PromoteRule 32 64 false (fun x y => x * y) .mulU32 0x19 ∧
  PromoteRule 32 64 true (fun x y => x * y) .mulI32 0x1A ∧
  PromoteRule 64 64 false (fun x y => x * y) .mulU64 0x1B ∧
  PromoteRule 64 64 true (fun x y => x * y) .mulI64 0x1C

/-- DIV on the eight integer types, under both values of SDIV_OVF. (spec R170, R171, R172, R173, R174, R175,
R176, R177) -/
def Obligations.IntegerDivisionTruncates : Prop :=
  UnsignedDivRule 8 (fun x y => x / y) .divU8 0x1F ∧
  SignedDivRule 8 (truncQuot) .divI8 0x20 ∧
  UnsignedDivRule 16 (fun x y => x / y) .divU16 0x21 ∧
  SignedDivRule 16 (truncQuot) .divI16 0x22 ∧
  UnsignedDivRule 32 (fun x y => x / y) .divU32 0x23 ∧
  SignedDivRule 32 (truncQuot) .divI32 0x24 ∧
  UnsignedDivRule 64 (fun x y => x / y) .divU64 0x25 ∧
  SignedDivRule 64 (truncQuot) .divI64 0x26

/-- MOD on the eight integer types, under both values of SDIV_OVF. (spec R180, R181, R182, R183, R184, R185,
R186, R187) -/
def Obligations.IntegerRemainderTruncates : Prop :=
  UnsignedDivRule 8 (fun x y => x - y * (x / y)) .modU8 0x29 ∧
  SignedDivRule 8 (truncRem) .modI8 0x2A ∧
  UnsignedDivRule 16 (fun x y => x - y * (x / y)) .modU16 0x2B ∧
  SignedDivRule 16 (truncRem) .modI16 0x2C ∧
  UnsignedDivRule 32 (fun x y => x - y * (x / y)) .modU32 0x2D ∧
  SignedDivRule 32 (truncRem) .modI32 0x2E ∧
  UnsignedDivRule 64 (fun x y => x - y * (x / y)) .modU64 0x2F ∧
  SignedDivRule 64 (truncRem) .modI64 0x30

/-- The eight float instructions complete with the FNUM result, or with some NaN drawn. (spec R148, R149, R158,
R159, R168, R169, R178, R179, R118) FNUM is the uninterpreted Config.fnum held to R118; which NaN it gives at a
draw is free, and counting draws is the model's form (log 4). How the IEEE 754 result is computed is log 3. -/
def Obligations.FloatArithmeticCompletes : Prop :=
  FloatRule 32 binary32 .add .addF 0x09 ∧
  FloatRule 64 binary64 .add .addD 0x0A ∧
  FloatRule 32 binary32 .sub .subF 0x13 ∧
  FloatRule 64 binary64 .sub .subD 0x14 ∧
  FloatRule 32 binary32 .mul .mulF 0x1D ∧
  FloatRule 64 binary64 .mul .mulD 0x1E ∧
  FloatRule 32 binary32 .div .divF 0x27 ∧
  FloatRule 64 binary64 .div .divD 0x28

/-- The FNUM addition is the IEEE 754 operation in binary32 and binary64. (spec R118, 00_scope.md R10) The spec
decides that FNUM is IEEE 754 (decision D9); how it is computed is the model's (log 3). -/
def Obligations.FloatAdditionIsIeee : Prop :=
  AddsAsIeee binary32 (onNats binary32 addVal) ∧ AddsAsIeee binary64 (onNats binary64 addVal)

/-- The FNUM subtraction is the IEEE 754 operation in binary32 and binary64. (spec R118, 00_scope.md R10) The
spec decides that FNUM is IEEE 754 (decision D9); how it is computed is the model's (log 3). -/
def Obligations.FloatSubtractionIsIeee : Prop :=
  SubtractsAsIeee binary32 (onNats binary32 subVal) ∧ SubtractsAsIeee binary64 (onNats binary64 subVal)

/-- The FNUM multiplication is the IEEE 754 operation in binary32 and binary64. (spec R118, 00_scope.md R10) The
spec decides that FNUM is IEEE 754 (decision D9); how it is computed is the model's (log 3). -/
def Obligations.FloatMultiplicationIsIeee : Prop :=
  MultipliesAsIeee binary32 (onNats binary32 mulVal) ∧ MultipliesAsIeee binary64 (onNats binary64 mulVal)

/-- The FNUM division is the IEEE 754 operation in binary32 and binary64. (spec R118, 00_scope.md R10) The spec
decides that FNUM is IEEE 754 (decision D9); how it is computed is the model's (log 3). -/
def Obligations.FloatDivisionIsIeee : Prop :=
  DividesAsIeee binary32 (onNats binary32 divVal) ∧ DividesAsIeee binary64 (onNats binary64 divVal)

/-- EQ and NEQ on the eight integer types compare the bit strings and push 01 or 00. (spec R210 R211 R212 R213
R214 R215 R216 R217, R220 R221 R222 R223 R224 R225 R226 R227) -/
def Obligations.IntegerEqualityComparisons : Prop :=
  CompareRule 8 (fun a b => a = b) .eqU8 0x31 ∧
  CompareRule 8 (fun a b => a = b) .eqI8 0x32 ∧
  CompareRule 16 (fun a b => a = b) .eqU16 0x33 ∧
  CompareRule 16 (fun a b => a = b) .eqI16 0x34 ∧
  CompareRule 32 (fun a b => a = b) .eqU32 0x35 ∧
  CompareRule 32 (fun a b => a = b) .eqI32 0x36 ∧
  CompareRule 64 (fun a b => a = b) .eqU64 0x37 ∧
  CompareRule 64 (fun a b => a = b) .eqI64 0x38 ∧
  CompareRule 8 (fun a b => a ≠ b) .neqU8 0x3B ∧
  CompareRule 8 (fun a b => a ≠ b) .neqI8 0x3C ∧
  CompareRule 16 (fun a b => a ≠ b) .neqU16 0x3D ∧
  CompareRule 16 (fun a b => a ≠ b) .neqI16 0x3E ∧
  CompareRule 32 (fun a b => a ≠ b) .neqU32 0x3F ∧
  CompareRule 32 (fun a b => a ≠ b) .neqI32 0x40 ∧
  CompareRule 64 (fun a b => a ≠ b) .neqU64 0x41 ∧
  CompareRule 64 (fun a b => a ≠ b) .neqI64 0x42

/-- LT, LTEQ, GT and GTEQ on the eight integer types compare by type and push 01 or 00. (spec R230 R231 R232
R233 R234 R235 R236 R237, R240 R241 R242 R243 R244 R245 R246 R247, R250 R251 R252 R253 R254 R255 R256 R257, R260
R261 R262 R263 R264 R265 R266 R267) -/
def Obligations.IntegerOrderComparisons : Prop :=
  CompareRule 8 (fun a b => a.toNat < b.toNat) .ltU8 0x45 ∧
  CompareRule 8 (fun a b => a.toInt < b.toInt) .ltI8 0x46 ∧
  CompareRule 16 (fun a b => a.toNat < b.toNat) .ltU16 0x47 ∧
  CompareRule 16 (fun a b => a.toInt < b.toInt) .ltI16 0x48 ∧
  CompareRule 32 (fun a b => a.toNat < b.toNat) .ltU32 0x49 ∧
  CompareRule 32 (fun a b => a.toInt < b.toInt) .ltI32 0x4A ∧
  CompareRule 64 (fun a b => a.toNat < b.toNat) .ltU64 0x4B ∧
  CompareRule 64 (fun a b => a.toInt < b.toInt) .ltI64 0x4C ∧
  CompareRule 8 (fun a b => a.toNat ≤ b.toNat) .lteqU8 0x4F ∧
  CompareRule 8 (fun a b => a.toInt ≤ b.toInt) .lteqI8 0x50 ∧
  CompareRule 16 (fun a b => a.toNat ≤ b.toNat) .lteqU16 0x51 ∧
  CompareRule 16 (fun a b => a.toInt ≤ b.toInt) .lteqI16 0x52 ∧
  CompareRule 32 (fun a b => a.toNat ≤ b.toNat) .lteqU32 0x53 ∧
  CompareRule 32 (fun a b => a.toInt ≤ b.toInt) .lteqI32 0x54 ∧
  CompareRule 64 (fun a b => a.toNat ≤ b.toNat) .lteqU64 0x55 ∧
  CompareRule 64 (fun a b => a.toInt ≤ b.toInt) .lteqI64 0x56 ∧
  CompareRule 8 (fun a b => b.toNat < a.toNat) .gtU8 0x59 ∧
  CompareRule 8 (fun a b => b.toInt < a.toInt) .gtI8 0x5A ∧
  CompareRule 16 (fun a b => b.toNat < a.toNat) .gtU16 0x5B ∧
  CompareRule 16 (fun a b => b.toInt < a.toInt) .gtI16 0x5C ∧
  CompareRule 32 (fun a b => b.toNat < a.toNat) .gtU32 0x5D ∧
  CompareRule 32 (fun a b => b.toInt < a.toInt) .gtI32 0x5E ∧
  CompareRule 64 (fun a b => b.toNat < a.toNat) .gtU64 0x5F ∧
  CompareRule 64 (fun a b => b.toInt < a.toInt) .gtI64 0x60 ∧
  CompareRule 8 (fun a b => b.toNat ≤ a.toNat) .gteqU8 0x63 ∧
  CompareRule 8 (fun a b => b.toInt ≤ a.toInt) .gteqI8 0x64 ∧
  CompareRule 16 (fun a b => b.toNat ≤ a.toNat) .gteqU16 0x65 ∧
  CompareRule 16 (fun a b => b.toInt ≤ a.toInt) .gteqI16 0x66 ∧
  CompareRule 32 (fun a b => b.toNat ≤ a.toNat) .gteqU32 0x67 ∧
  CompareRule 32 (fun a b => b.toInt ≤ a.toInt) .gteqI32 0x68 ∧
  CompareRule 64 (fun a b => b.toNat ≤ a.toNat) .gteqU64 0x69 ∧
  CompareRule 64 (fun a b => b.toInt ≤ a.toInt) .gteqI64 0x6A

/-- The twelve float comparisons follow the IEEE 754 order, NaN unordered and the zeros equal. (spec R119, R218
R219, R228 R229, R238 R239, R248 R249, R258 R259, R268 R269) The clauses on NaN, zeros and infinities are those
that R119 and the float rules among R218 to R269 mark [from general knowledge, not in source]; the spec decides
them (decision D10). -/
def Obligations.FloatComparisonsAreIeee : Prop :=
  CompareRule 32 (fun a b => SameValue binary32 a.toNat b.toNat) .eqF 0x39 ∧
  CompareRule 64 (fun a b => SameValue binary64 a.toNat b.toNat) .eqD 0x3A ∧
  CompareRule 32 (fun a b => ¬ SameValue binary32 a.toNat b.toNat) .neqF 0x43 ∧
  CompareRule 64 (fun a b => ¬ SameValue binary64 a.toNat b.toNat) .neqD 0x44 ∧
  CompareRule 32 (fun a b => Below binary32 a.toNat b.toNat) .ltF 0x4D ∧
  CompareRule 64 (fun a b => Below binary64 a.toNat b.toNat) .ltD 0x4E ∧
  CompareRule 32 (fun a b => Below binary32 a.toNat b.toNat ∨ SameValue binary32 a.toNat b.toNat) .lteqF 0x57 ∧
  CompareRule 64 (fun a b => Below binary64 a.toNat b.toNat ∨ SameValue binary64 a.toNat b.toNat) .lteqD 0x58 ∧
  CompareRule 32 (fun a b => Below binary32 b.toNat a.toNat) .gtF 0x61 ∧
  CompareRule 64 (fun a b => Below binary64 b.toNat a.toNat) .gtD 0x62 ∧
  CompareRule 32 (fun a b => Below binary32 b.toNat a.toNat ∨ SameValue binary32 a.toNat b.toNat) .gteqF 0x6B ∧
  CompareRule 64 (fun a b => Below binary64 b.toNat a.toNat ∨ SameValue binary64 a.toNat b.toNat) .gteqD 0x6C

/-- Logical AND, OR, XOR and NOT take any nonzero byte as true and push 01 or 00. (spec R290, R291, R292, R293)
-/
def Obligations.LogicalInstructionsWorkOnTruth : Prop :=
  BinaryRule 8 8 (fun a b => if a ≠ 0 ∧ b ≠ 0 then 0x01 else 0x00) .logicalAnd 0x6D ∧
  BinaryRule 8 8 (fun a b => if a ≠ 0 ∨ b ≠ 0 then 0x01 else 0x00) .logicalOr 0x6E ∧
  BinaryRule 8 8 (fun a b => if (a ≠ 0 ∨ b ≠ 0) ∧ ¬ (a ≠ 0 ∧ b ≠ 0) then 0x01 else 0x00) .logicalXor 0x6F ∧
  UnaryRule 8 8 (fun a => if a = 0 then 0x01 else 0x00) .logicalNot 0x70

/-- Bitwise AND, OR, XOR and NOT work bit by bit in four widths. (spec R294 R295 R296 R297, R298 R299 R300 R301,
R302 R303 R304 R305, R306 R307 R308 R309) -/
def Obligations.BitwiseInstructionsWorkBitByBit : Prop :=
  BinaryRule 8 8 (fun a b => BitVec.ofFnLE fun k : Fin 8 => a.getLsbD k.val && b.getLsbD k.val) .andU8 0x71 ∧
  BinaryRule 16 16 (fun a b => BitVec.ofFnLE fun k : Fin 16 => a.getLsbD k.val && b.getLsbD k.val) .andU16 0x72 ∧
  BinaryRule 32 32 (fun a b => BitVec.ofFnLE fun k : Fin 32 => a.getLsbD k.val && b.getLsbD k.val) .andU32 0x73 ∧
  BinaryRule 64 64 (fun a b => BitVec.ofFnLE fun k : Fin 64 => a.getLsbD k.val && b.getLsbD k.val) .andU64 0x74 ∧
  BinaryRule 8 8 (fun a b => BitVec.ofFnLE fun k : Fin 8 => a.getLsbD k.val || b.getLsbD k.val) .orU8 0x75 ∧
  BinaryRule 16 16 (fun a b => BitVec.ofFnLE fun k : Fin 16 => a.getLsbD k.val || b.getLsbD k.val) .orU16 0x76 ∧
  BinaryRule 32 32 (fun a b => BitVec.ofFnLE fun k : Fin 32 => a.getLsbD k.val || b.getLsbD k.val) .orU32 0x77 ∧
  BinaryRule 64 64 (fun a b => BitVec.ofFnLE fun k : Fin 64 => a.getLsbD k.val || b.getLsbD k.val) .orU64 0x78 ∧
  BinaryRule 8 8 (fun a b => BitVec.ofFnLE fun k : Fin 8 => a.getLsbD k.val ^^ b.getLsbD k.val) .xorU8 0x79 ∧
  BinaryRule 16 16 (fun a b => BitVec.ofFnLE fun k : Fin 16 => a.getLsbD k.val ^^ b.getLsbD k.val) .xorU16 0x7A ∧
  BinaryRule 32 32 (fun a b => BitVec.ofFnLE fun k : Fin 32 => a.getLsbD k.val ^^ b.getLsbD k.val) .xorU32 0x7B ∧
  BinaryRule 64 64 (fun a b => BitVec.ofFnLE fun k : Fin 64 => a.getLsbD k.val ^^ b.getLsbD k.val) .xorU64 0x7C ∧
  UnaryRule 8 8 (fun a => BitVec.ofNat 8 (2 ^ 8 - 1 - a.toNat)) .notU8 0x7D ∧
  UnaryRule 16 16 (fun a => BitVec.ofNat 16 (2 ^ 16 - 1 - a.toNat)) .notU16 0x7E ∧
  UnaryRule 32 32 (fun a => BitVec.ofNat 32 (2 ^ 32 - 1 - a.toNat)) .notU32 0x7F ∧
  UnaryRule 64 64 (fun a => BitVec.ofNat 64 (2 ^ 64 - 1 - a.toNat)) .notU64 0x80

/-- LSHFT and RSHFT shift logically, and by the width or more give zero. (spec R310, R311, R312, R313, R314,
R315, R316, R317) -/
def Obligations.ShiftsAreLogicalAndZeroPastTheWidth : Prop :=
  ShiftRule 8 (fun v n => if n < 8 then v * 2 ^ n else 0) .lshftU8 0x81 ∧
  ShiftRule 16 (fun v n => if n < 16 then v * 2 ^ n else 0) .lshftU16 0x82 ∧
  ShiftRule 32 (fun v n => if n < 32 then v * 2 ^ n else 0) .lshftU32 0x83 ∧
  ShiftRule 64 (fun v n => if n < 64 then v * 2 ^ n else 0) .lshftU64 0x84 ∧
  ShiftRule 8 (fun v n => if n < 8 then v / 2 ^ n else 0) .rshftU8 0x85 ∧
  ShiftRule 16 (fun v n => if n < 16 then v / 2 ^ n else 0) .rshftU16 0x86 ∧
  ShiftRule 32 (fun v n => if n < 32 then v / 2 ^ n else 0) .rshftU32 0x87 ∧
  ShiftRule 64 (fun v n => if n < 64 then v / 2 ^ n else 0) .rshftU64 0x88

/-- JMP pops an absolute target, checks it against CODE_LEN and goes there. (spec R340, R341, R342, R343) -/
def Obligations.JumpGoesToACheckedTarget : Prop :=
  JumpRule 8 .jmpU8 0x89 ∧
  JumpRule 16 .jmpU16 0x8A ∧
  JumpRule 32 .jmpU32 0x8B ∧
  JumpRule 64 .jmpU64 0x8C

/-- JMPIF takes the branch when the byte below the target is nonzero, and checks the target only then. (spec
R344, R345, R346, R347) -/
def Obligations.ConditionalJumpTestsTheByteBelow : Prop :=
  JumpIfRule 8 .jmpifU8 0x8D ∧
  JumpIfRule 16 .jmpifU16 0x8E ∧
  JumpIfRule 32 .jmpifU32 0x8F ∧
  JumpIfRule 64 .jmpifU64 0x90

/-- CALL saves pc and fp on the stack, sets fp to the new sp and goes to the target. (spec R348, R349, R350,
R351) -/
def Obligations.CallLaysDownTheFrame : Prop :=
  CallRule 8 .callU8 0xA1 ∧
  CallRule 16 .callU16 0xA2 ∧
  CallRule 32 .callU32 0xA3 ∧
  CallRule 64 .callU64 0xA4

/-- RET restores pc and fp from the frame and leaves the return value in place of frame and arguments. (spec
R352, R353, R354, R355) -/
def Obligations.ReturnUndoesTheFrame : Prop :=
  ReturnRule 8 .retU8 0xA5 ∧
  ReturnRule 16 .retU16 0xA6 ∧
  ReturnRule 32 .retU32 0xA7 ∧
  ReturnRule 64 .retU64 0xA8

/-- A call and its return leave one value in place of arguments and frame, and restore pc, fp and the caller's
stack. (spec R336, R337, R338) R338 is marked [derived: from rules R336, R337 and the source's own statement]:
an inference the spec itself draws. -/
def Obligations.CallThenReturnNetEffect : Prop :=
  CallReturnRule 8 8 .callU8 .retU8 ∧
  CallReturnRule 8 16 .callU8 .retU16 ∧
  CallReturnRule 8 32 .callU8 .retU32 ∧
  CallReturnRule 8 64 .callU8 .retU64 ∧
  CallReturnRule 16 8 .callU16 .retU8 ∧
  CallReturnRule 16 16 .callU16 .retU16 ∧
  CallReturnRule 16 32 .callU16 .retU32 ∧
  CallReturnRule 16 64 .callU16 .retU64 ∧
  CallReturnRule 32 8 .callU32 .retU8 ∧
  CallReturnRule 32 16 .callU32 .retU16 ∧
  CallReturnRule 32 32 .callU32 .retU32 ∧
  CallReturnRule 32 64 .callU32 .retU64 ∧
  CallReturnRule 64 8 .callU64 .retU8 ∧
  CallReturnRule 64 16 .callU64 .retU16 ∧
  CallReturnRule 64 32 .callU64 .retU32 ∧
  CallReturnRule 64 64 .callU64 .retU64

/-- ARGC pushes the byte at fp - 17. (spec R356) -/
def Obligations.ArgcReadsTheCountInTheFrame : Prop :=
  Opcode .argc 0xA9 ∧ ∀ s : State,
    (s.fp.toNat < 17 → TakesFault .argc s .stackUnderflow) ∧
    (s.sp.toNat + 17 ≤ s.fp.toNat → TakesFault .argc s .stackUnderflow) ∧
    (17 ≤ s.fp.toNat → s.fp.toNat < s.sp.toNat + 17 →
      (s.params.stackCap ≤ s.sp.toNat → TakesFault .argc s .stackOverflow) ∧
      (s.sp.toNat < s.params.stackCap → s.params.stackCap < 2 ^ 64 →
        Pushes .argc s s.live [s.stackByte (s.fp.toNat - 17)]))

/-- ARG replaces an index byte i by the byte at fp - 18 - i. (spec R357) -/
def Obligations.ArgReadsAnArgumentByte : Prop :=
  Opcode .arg 0xAA ∧ ∀ s : State,
    (s.sp.toNat < 1 → TakesFault .arg s .stackUnderflow) ∧
    ∀ (pre : List Byte) (i : Byte), s.live = pre ++ [i] →
      (s.fp.toNat < 18 + i.toNat → TakesFault .arg s .stackUnderflow) ∧
      (pre.length + 18 + i.toNat ≤ s.fp.toNat → TakesFault .arg s .stackUnderflow) ∧
      (18 + i.toNat ≤ s.fp.toNat → s.fp.toNat < pre.length + 18 + i.toNat → s.sp.toNat ≤ s.params.stackCap →
        Pushes .arg s pre [s.stackByte (s.fp.toNat - 18 - i.toNat)])

/-- PUSH pushes the bytes of its immediate and moves pc past them. (spec R390, R391, R392, R393) That the
instruction carries its immediate is the model's form (log 16). -/
def Obligations.PushCompletesWithItsImmediate : Prop :=
  PushRule 8 .pushU8 ∧ PushRule 16 .pushU16 ∧ PushRule 32 .pushU32 ∧ PushRule 64 .pushU64

/-- A step at a PUSH opcode copies the bytes after it from the code to the stack in code order. (spec R390,
R391, R392, R393) The hypothesis that no command waits is about the model's list of commands (log 10). -/
def Obligations.PushStepCopiesCodeBytes : Prop :=
  PushStepRule 1 0x91 ∧ PushStepRule 2 0x92 ∧ PushStepRule 4 0x93 ∧ PushStepRule 8 0x94

/-- POP lowers sp by 1, 2, 4 or 8 and touches nothing else. (spec R394, R395, R396, R397) -/
def Obligations.PopDiscardsBytesUnread : Prop :=
  PopRule 1 .popU8 0x95 ∧
  PopRule 2 .popU16 0x96 ∧
  PopRule 4 .popU32 0x97 ∧
  PopRule 8 .popU64 0x98

/-- LOAD replaces an address of W bits by the store byte there. (spec R398, R399, R400, R401) -/
def Obligations.LoadReadsOneStoreByte : Prop :=
  LoadRule 8 .loadU8 0x99 ∧
  LoadRule 16 .loadU16 0x9A ∧
  LoadRule 32 .loadU32 0x9B ∧
  LoadRule 64 .loadU64 0x9C

/-- STORE writes the byte below the address to the store, and no other store byte changes. (spec R402, R403,
R404, R405) -/
def Obligations.StoreWritesOneStoreByte : Prop :=
  StoreRule 8 .storeU8 0x9D ∧
  StoreRule 16 .storeU16 0x9E ∧
  StoreRule 32 .storeU32 0x9F ∧
  StoreRule 64 .storeU64 0xA0

/-- HALT sets status Halted and changes nothing else. (spec R411, 40_primitives.md R112) That pc is left past
the opcode is the sentence of R411 marked [derived: from 40_primitives.md rule R112]: an inference the spec
itself draws. The hypothesis that no command waits is about the model's list of commands (log 10). It is asked
of the whole step only. -/
def Obligations.HaltEndsTheRun : Prop :=
  Opcode .halt 0xAB ∧
  (∀ s : State, exec .halt s = .next { s with status := .halted }) ∧
  ∀ (s : State) (rest : List Byte), s.status = .running → s.commands = [] → s.params.opmap = defaultOpmap →
    s.code.drop s.pc.toNat = 0xAB :: rest →
    step s = .next { s with status := .halted, pc := s.pc + 1 }

/-- SYSCALL checks its arity, takes its operands and presents the request to the host. (spec R412, R413, R414)
The lists of answers and requests are the model's choice (log 11, log 12). -/
def Obligations.SyscallPresentsItsRequest : Prop :=
  Opcode .syscall 0xAC ∧ ∀ s : State,
    (s.sp.toNat < 1 → TakesFault .syscall s .stackUnderflow) ∧
    (∀ (below : List Byte) (argc : Byte), s.live = below ++ [argc] →
      (5 < argc.toNat → TakesFault .syscall s .invalidSyscallArity) ∧
      (argc.toNat ≤ 5 → below.length < 8 * argc.toNat + 8 → TakesFault .syscall s .stackUnderflow)) ∧
    ∀ (pre : List Byte) (num : Word) (args : List Word),
      s.live = pre ++ bytesOf num ++ args.flatMap bytesOf ++ [BitVec.ofNat 8 args.length] → args.length ≤ 5 →
      s.sp.toNat ≤ s.params.stackCap →
      (∀ r, s.answers.lookup (s.requests.length + 1) = some r →
        ∃ t, exec .syscall s = .next t ∧ t.live = pre ++ bytesOf r ∧
          t = { s with
            sp := t.sp
            stack := t.stack
            status := .running
            request := none
            requests := s.requests ++ [⟨num, args⟩] } ∧
          ∀ k, k < pre.length ∨ pre.length + 8 ≤ k → t.stackByte k = s.stackByte k) ∧
      (s.answers.lookup (s.requests.length + 1) = none →
        exec .syscall s = .next { s with
          sp := BitVec.ofNat 64 pre.length
          status := .waitingHost
          request := some ⟨num, args⟩
          requests := s.requests ++ [⟨num, args⟩] })

/-- In WaitingHost the machine stands until the host answers, then pushes the answer and runs on. (spec R413,
R415) The list of answers and the step of its own are the model's choice (log 11); the named stop is log 9, and
that a waiting command comes first log 10. -/
def Obligations.WaitingMachineTakesTheAnswer : Prop :=
  ∀ s : State, s.status = .waitingHost → s.commands = [] →
    (s.answers.lookup s.requests.length = none → step s = .fault .waitingHost) ∧
    ∀ r, s.answers.lookup s.requests.length = some r → s.sp.toNat + 8 ≤ s.params.stackCap →
      s.params.stackCap < 2 ^ 64 →
      ∃ t, step s = .next t ∧ t.live = s.live ++ bytesOf r ∧
        t = { s with sp := t.sp, stack := t.stack, status := .running, request := none } ∧
        ∀ k, k < s.sp.toNat ∨ s.sp.toNat + 8 ≤ k → t.stackByte k = s.stackByte k

/-- A step runs the instruction decoded at pc, entered with pc past its opcode byte. (spec R112, 00_scope.md
R13) That a waiting command comes first is the model's choice (log 10). -/
def Obligations.StepRunsTheDecodedInstruction : Prop :=
  ∀ (s : State) (i : Instr) (rest : List Byte), s.status = .running → s.commands = [] →
    decode s.params.opmap (s.code.drop s.pc.toNat) = .ok (i, rest) →
    step s = exec i { s with pc := s.pc + 1 }

/-- A step past the end of the code raises CodeOverrun, at a byte outside OPMAP InvalidOpcode. (spec R111, R112,
R428, R429) That a waiting command comes first is the model's choice (log 10). -/
def Obligations.FetchFaults : Prop :=
  ∀ s : State, s.status = .running → s.commands = [] →
    (s.codeLen ≤ s.pc.toNat → ∃ t, step s = .next t ∧ FaultedFrom s t .codeOverrun) ∧
    ∀ (b : Byte) (rest : List Byte), OpMap.wellFormed s.params.opmap = true →
      s.code.drop s.pc.toNat = b :: rest → b ∉ s.params.opmap →
      ∃ t, step s = .next t ∧ FaultedFrom s t .invalidOpcode

/-- No step is taken in Idle, Halted or Faulted while no command waits. (spec R112, R430, R463) The named stops
are the model's form (log 9), and that a waiting command comes first is its choice (log 10). -/
def Obligations.StoppedMachineTakesNoStep : Prop :=
  ∀ s : State, s.commands = [] →
    (s.status = .idle → step s = .fault .idle) ∧
    (s.status = .halted → step s = .fault .halted) ∧
    (s.status = .faulted → step s = .fault .faulted)

/-- Every instruction answers a next state from every state: none refuses, none stops. (spec R112, R420, R430)
That a fault of the machine is a next state, so that every instruction answers one, is the model's form (log 9,
read from R430 by inference); that a waiting command comes before the instruction is its choice (log 10). -/
def Obligations.EveryInstructionTakesAStep : Prop :=
  (∀ (i : Instr) (s : State), ∃ t, exec i s = .next t) ∧
  ∀ s : State, s.status = .running → s.commands = [] → ∃ t, step s = .next t

/-- Each instruction raises only the causes of its row of the fault table. (spec R422, R423, R424, R425, R426,
R427, R434) -/
def Obligations.FaultCausesPerInstruction : Prop :=
  ∀ (i : Instr) (s t : State), s.status ≠ .faulted → s.sp.toNat ≤ s.params.stackCap →
    exec i s = .next t → t.status = .faulted → t.cause ∈ causesOf i

/-- A fault sets status and cause and keeps the store, the code and the parameters. (spec R430, R431) What pc,
sp, fp and the stack then hold is free (log 6). -/
def Obligations.FaultKeepsStoreCodeAndParameters : Prop :=
  ∀ (i : Instr) (s t : State), s.status ≠ .faulted → exec i s = .next t → t.status = .faulted →
    FaultedFrom s t t.cause ∧ t.cause ≠ .none ∧ t.cause ≠ .allocationFailure

/-- Faulted is left only by a reset command. (spec R27, R435, R463) That commands wait in a list, and that one
of an impossible size is dropped, is the model's choice (log 10). -/
def Obligations.FaultedIsLeftOnlyByReset : Prop :=
  ∀ s t : State, s.status = .faulted → step s = .next t →
    ∃ c rest, s.commands = c :: rest ∧
      ((t.status = .faulted ∧ t.cause = s.cause) ∨
       (t.status = .idle ∧ t.cause = .none ∧
        ∃ stackCap storeCap code, c = .reset stackCap storeCap code ∧ stackCap < 2 ^ 64 ∧ storeCap < 2 ^ 64 ∧
          code.length < 2 ^ 64))

/-- The invariant holds of the state after reset. (spec R34, R28, R40) The capacities and the model's own fields
of State.reset are its choice (log 7, log 19). -/
def Obligations.InvariantHoldsAtReset : Prop :=
  StateInv State.reset

/-- Every step keeps the invariant of the machine. (spec R34, R28, R31, R32, R33, R432, R461) The clauses on
requests and draws are about fields of the model's own (log 4, log 5, log 12); commands are log 10. -/
def Obligations.InvariantKeptByEveryStep : Prop :=
  ∀ s t : State, StateInv s → step s = .next t → StateInv t

/-- pc is at most CODE_LEN after every instruction but RET. (spec R22, R23, R34) -/
def Obligations.PcStaysWithinCodeExceptAfterReturn : Prop :=
  ∀ (i : Instr) (s t : State), ¬ isReturn i → s.pc.toNat ≤ s.codeLen →
    exec i s = .next t → t.status ≠ .faulted → t.pc.toNat ≤ t.codeLen

/-- fp is written by CALL and RET only. (spec R25) -/
def Obligations.OnlyCallAndReturnWriteFp : Prop :=
  ∀ (i : Instr) (s t : State), ¬ writesFp i → exec i s = .next t → t.status ≠ .faulted → t.fp = s.fp

/-- The store is written by STORE only, and by a fault never. (spec R32, R431) -/
def Obligations.OnlyStoreWritesTheStore : Prop :=
  ∀ (i : Instr) (s t : State), exec i s = .next t →
    (¬ isStore i ∨ (s.status ≠ .faulted ∧ t.status = .faulted)) → ∀ a, t.storeByte a = s.storeByte a

/-- No instruction changes the code buffer, the capacities or the opcode map. (spec R29, R66) The hypothesis
that no command waits is about the model's list of commands (log 10). -/
def Obligations.NoInstructionWritesCodeOrParameters : Prop :=
  (∀ (i : Instr) (s t : State), exec i s = .next t → t.code = s.code ∧ t.params = s.params) ∧
  ∀ s t : State, s.commands = [] → step s = .next t → t.code = s.code ∧ t.params = s.params

/-- Only SYSCALL presents a request to the host. (spec R410, R37) -/
def Obligations.OnlySyscallReachesTheHost : Prop :=
  ∀ (i : Instr) (s t : State), i ≠ .syscall → exec i s = .next t →
    t.requests = s.requests ∧ t.request = s.request ∧ (t.status = .waitingHost → s.status = .waitingHost)

/-- With no command waiting, status moves only from Running, and from WaitingHost to Running. (spec R27, R112)
The hypothesis on commands is about the model's list (log 10). -/
def Obligations.StatusMovesOnlyAsStated : Prop :=
  ∀ s t : State, StateInv s → s.commands = [] → step s = .next t →
    (s.status = .running ∧ t.status ≠ .idle) ∨ (s.status = .waitingHost ∧ t.status = .running)

/-- Stack bytes at or above sp never influence a step. (spec R31, R105, R110, R461) Unwritten bytes are free
values of the model's (log 5). Both states take the same draws: that equal counts are equal draws is the model's
form (log 4). -/
def Obligations.DeadStackBytesAreNotObservable : Prop :=
  ∀ s s' t : State, SameButDeadStack s s' → step s = .next t →
    ∃ t', step s' = .next t' ∧ SameButDeadStack t t'

/-- After reset pc, sp, fp are 0, status Idle, cause None and no request is pending. (spec R40, R87, R134) The
model takes the spec's defaults of OPMAP and SDIV_OVF at reset (log 1, log 2). -/
def Obligations.ResetLeavesTheStatedValues : Prop :=
  State.reset.pc = 0 ∧ State.reset.sp = 0 ∧ State.reset.fp = 0 ∧ State.reset.status = .idle ∧
  State.reset.cause = .none ∧ State.reset.request = none ∧ State.reset.params.opmap = defaultOpmap ∧
  State.reset.params.sdivOvf = .wrap

/-- A reset command is taken in every status and leaves the stated values. (spec R460, R40) That a command waits
in a list and takes a step is the model's choice (log 10), as are the draws (log 5). -/
def Obligations.ResetCommandStartsANewLife : Prop :=
  ∀ (s : State) (stackCap storeCap : Nat) (code : List Byte) (rest : List Command),
    s.commands = .reset stackCap storeCap code :: rest → stackCap < 2 ^ 64 → storeCap < 2 ^ 64 →
    code.length < 2 ^ 64 →
    ∃ t, step s = .next t ∧ t.pc = 0 ∧ t.sp = 0 ∧ t.fp = 0 ∧ t.status = .idle ∧ t.cause = .none ∧
      t.request = none ∧ t.code = code ∧
      t.params = ⟨stackCap, storeCap, s.params.sdivOvf, s.params.opmap⟩ ∧
      (∀ k, t.stackByte k = Config.stackInit s.draws k) ∧ (∀ a, t.storeByte a = Config.storeInit s.draws a) ∧
      t.draws = s.draws + 1 ∧ t.commands = rest

/-- A run command is accepted in Idle and Halted only, and changes only code, pc, cause and status. (spec R463,
R27) That a command waits in a list and takes a step is the model's choice (log 10). -/
def Obligations.RunCommandStartsARun : Prop :=
  ∀ (s : State) (code : Option (List Byte)) (startPc : Word) (rest : List Command),
    s.commands = .run code startPc :: rest → (∀ c, code = some c → c.length < 2 ^ 64) →
    ((s.status = .idle ∨ s.status = .halted) →
      step s = .next { s with
        commands := rest
        code := code.getD s.code
        pc := startPc
        cause := .none
        status := .running }) ∧
    ((s.status = .running ∨ s.status = .waitingHost ∨ s.status = .faulted) →
      step s = .next { s with commands := rest })
end

