-- ==== Sys2Proof/Laws/Codec.lean ====
section
/-! SUPPORT. The byte order of the machine: a value and its bytes determine each other. -/

namespace Sys2Proof.Machine

@[simp] theorem length_bytesOf {w : Nat} (v : BitVec w) : (bytesOf v).length = w / 8 := by
  simp [bytesOf]

/-- The fold of `ofBytes`, from any accumulator. -/
theorem foldl_bytes (x n acc : Nat) :
    ((List.range n).reverse.map fun i => (BitVec.ofNat 8 (x / 2 ^ (8 * i)))).foldl
      (fun acc b => 256 * acc + b.toNat) acc = acc * 2 ^ (8 * n) + x % 2 ^ (8 * n) := by
  induction n generalizing acc with
  | zero => simp [Nat.mod_one]
  | succ n ih =>
    rw [List.range_succ, List.reverse_append, List.reverse_singleton, List.singleton_append, List.map_cons,
      List.foldl_cons, ih, BitVec.toNat_ofNat]
    have e : 2 ^ (8 * (n + 1)) = 2 ^ (8 * n) * 2 ^ 8 := by rw [← pow_add]; ring_nf
    rw [e, Nat.mod_mul]
    ring

theorem bytesOf_eq {w : Nat} (v : BitVec w) :
    bytesOf v = (List.range (w / 8)).reverse.map fun i => BitVec.ofNat 8 (v.toNat / 2 ^ (8 * i)) := by
  simp only [bytesOf]
  refine List.map_congr_left fun i _ => ?_
  apply BitVec.eq_of_toNat_eq
  simp [Nat.shiftRight_eq_div_pow]

/-- A value is the value of its bytes. -/
theorem ofBytes_bytesOf {w : Nat} (h : 8 ∣ w) (v : BitVec w) : ofBytes w (bytesOf v) = v := by
  obtain ⟨n, rfl⟩ := h
  apply BitVec.eq_of_toNat_eq
  rw [ofBytes, bytesOf_eq, foldl_bytes]
  have := v.isLt
  simp [Nat.mod_eq_of_lt this]

/-- The bytes of a number that ends in the byte b. -/
theorem digits_snoc (y n : Nat) (b : Byte) :
    ((List.range (n + 1)).reverse.map fun i => BitVec.ofNat 8 ((256 * y + b.toNat) / 2 ^ (8 * i))) =
      ((List.range n).reverse.map fun i => BitVec.ofNat 8 (y / 2 ^ (8 * i))) ++ [b] := by
  rw [List.range_succ_eq_map, List.reverse_cons, List.map_append, ← List.map_reverse, List.map_map]
  congr 1
  · refine List.map_congr_left fun i _ => ?_
    have e : 2 ^ (8 * (i + 1)) = 256 * 2 ^ (8 * i) := by rw [Nat.mul_add, pow_add]; norm_num; ring
    have hb := b.isLt
    simp only [Function.comp, Nat.succ_eq_add_one, e]
    rw [← Nat.div_div_eq_div_mul]
    congr 2
    omega
  · simp only [List.map_cons, List.map_nil, Nat.mul_zero, pow_zero, Nat.div_one, List.cons.injEq, and_true]
    apply BitVec.eq_of_toNat_eq
    have hb := b.isLt
    simp only [BitVec.toNat_ofNat]
    omega

/-- The bytes of the value of a list of bytes are the list. -/
theorem bytesOf_ofBytes {w : Nat} (h : 8 ∣ w) (bs : List Byte) (hl : bs.length = w / 8) :
    bytesOf (ofBytes w bs) = bs := by
  obtain ⟨n, rfl⟩ := h
  have hn : bs.length = n := by omega
  have key : ∀ (bs : List Byte), bs.foldl (fun acc b => 256 * acc + b.toNat) 0 < 2 ^ (8 * bs.length) ∧
      ((List.range bs.length).reverse.map fun i =>
        BitVec.ofNat 8 (bs.foldl (fun acc b => 256 * acc + b.toNat) 0 / 2 ^ (8 * i))) = bs := by
    intro bs
    induction bs using List.reverseRecOn with
    | nil => simp
    | append_singleton bs b ih =>
      simp only [List.foldl_append, List.foldl_cons, List.foldl_nil, List.length_append, List.length_singleton]
      refine ⟨?_, ?_⟩
      · have hb := b.isLt
        have e : 2 ^ (8 * (bs.length + 1)) = 256 * 2 ^ (8 * bs.length) := by
          rw [Nat.mul_add, pow_add]; norm_num; ring
        rw [e]; omega
      · rw [digits_snoc, ih.2]
  rw [bytesOf_eq, ofBytes, BitVec.toNat_ofNat, show 8 * n / 8 = bs.length by omega,
    Nat.mod_eq_of_lt (hn ▸ (key bs).1)]
  exact (key bs).2

theorem ser32_eq_bytesOf (x : BitVec 32) : ser32 x = bytesOf x := rfl

theorem ser64_eq_bytesOf (x : BitVec 64) : ser64 x = bytesOf x := rfl

/-- The value of bits followed by a byte. -/
theorem toNat_append_byte {n : Nat} (x : BitVec n) (b : Byte) : (x ++ b).toNat = 256 * x.toNat + b.toNat := by
  rw [BitVec.toNat_append, ← Nat.shiftLeft_add_eq_or_of_lt b.isLt, Nat.shiftLeft_eq]
  omega

theorem deser32_eq_ofBytes (b0 b1 b2 b3 : Byte) : deser32 b0 b1 b2 b3 = ofBytes 32 [b0, b1, b2, b3] := by
  apply BitVec.eq_of_toNat_eq
  have := (deser32 b0 b1 b2 b3).isLt
  simp only [deser32, toNat_append_byte] at this
  simp only [deser32, ofBytes, List.foldl_cons, List.foldl_nil, toNat_append_byte, BitVec.toNat_ofNat]
  omega

theorem deser64_eq_ofBytes (b0 b1 b2 b3 b4 b5 b6 b7 : Byte) :
    deser64 b0 b1 b2 b3 b4 b5 b6 b7 = ofBytes 64 [b0, b1, b2, b3, b4, b5, b6, b7] := by
  apply BitVec.eq_of_toNat_eq
  have := (deser64 b0 b1 b2 b3 b4 b5 b6 b7).isLt
  simp only [deser64, toNat_append_byte] at this
  simp only [deser64, ofBytes, List.foldl_cons, List.foldl_nil, toNat_append_byte, BitVec.toNat_ofNat]
  omega

end Sys2Proof.Machine
end

