-- ==== Sys2Proof/Laws/State.lean ====
section
/-! SUPPORT. One lemma for each field of the state under each named update, so that no proof unfolds a record
update. -/

namespace Sys2Proof.Machine

variable (s : State)

/-! ### State.setPc -/

@[simp] theorem State.setPc_pc (v : Word) : (s.setPc v).pc = v := rfl
@[simp] theorem State.setPc_sp (v : Word) : (s.setPc v).sp = s.sp := rfl
@[simp] theorem State.setPc_fp (v : Word) : (s.setPc v).fp = s.fp := rfl
@[simp] theorem State.setPc_status (v : Word) : (s.setPc v).status = s.status := rfl
@[simp] theorem State.setPc_cause (v : Word) : (s.setPc v).cause = s.cause := rfl
@[simp] theorem State.setPc_stack (v : Word) : (s.setPc v).stack = s.stack := rfl
@[simp] theorem State.setPc_store (v : Word) : (s.setPc v).store = s.store := rfl
@[simp] theorem State.setPc_request (v : Word) : (s.setPc v).request = s.request := rfl
@[simp] theorem State.setPc_code (v : Word) : (s.setPc v).code = s.code := rfl
@[simp] theorem State.setPc_params (v : Word) : (s.setPc v).params = s.params := rfl
@[simp] theorem State.setPc_commands (v : Word) : (s.setPc v).commands = s.commands := rfl
@[simp] theorem State.setPc_answers (v : Word) : (s.setPc v).answers = s.answers := rfl
@[simp] theorem State.setPc_requests (v : Word) : (s.setPc v).requests = s.requests := rfl
@[simp] theorem State.setPc_draws (v : Word) : (s.setPc v).draws = s.draws := rfl
@[simp] theorem State.setPc_stackDraw (v : Word) : (s.setPc v).stackDraw = s.stackDraw := rfl
@[simp] theorem State.setPc_storeDraw (v : Word) : (s.setPc v).storeDraw = s.storeDraw := rfl

/-! ### State.setSp -/

@[simp] theorem State.setSp_pc (v : Word) : (s.setSp v).pc = s.pc := rfl
@[simp] theorem State.setSp_sp (v : Word) : (s.setSp v).sp = v := rfl
@[simp] theorem State.setSp_fp (v : Word) : (s.setSp v).fp = s.fp := rfl
@[simp] theorem State.setSp_status (v : Word) : (s.setSp v).status = s.status := rfl
@[simp] theorem State.setSp_cause (v : Word) : (s.setSp v).cause = s.cause := rfl
@[simp] theorem State.setSp_stack (v : Word) : (s.setSp v).stack = s.stack := rfl
@[simp] theorem State.setSp_store (v : Word) : (s.setSp v).store = s.store := rfl
@[simp] theorem State.setSp_request (v : Word) : (s.setSp v).request = s.request := rfl
@[simp] theorem State.setSp_code (v : Word) : (s.setSp v).code = s.code := rfl
@[simp] theorem State.setSp_params (v : Word) : (s.setSp v).params = s.params := rfl
@[simp] theorem State.setSp_commands (v : Word) : (s.setSp v).commands = s.commands := rfl
@[simp] theorem State.setSp_answers (v : Word) : (s.setSp v).answers = s.answers := rfl
@[simp] theorem State.setSp_requests (v : Word) : (s.setSp v).requests = s.requests := rfl
@[simp] theorem State.setSp_draws (v : Word) : (s.setSp v).draws = s.draws := rfl
@[simp] theorem State.setSp_stackDraw (v : Word) : (s.setSp v).stackDraw = s.stackDraw := rfl
@[simp] theorem State.setSp_storeDraw (v : Word) : (s.setSp v).storeDraw = s.storeDraw := rfl

/-! ### State.setFp -/

@[simp] theorem State.setFp_pc (v : Word) : (s.setFp v).pc = s.pc := rfl
@[simp] theorem State.setFp_sp (v : Word) : (s.setFp v).sp = s.sp := rfl
@[simp] theorem State.setFp_fp (v : Word) : (s.setFp v).fp = v := rfl
@[simp] theorem State.setFp_status (v : Word) : (s.setFp v).status = s.status := rfl
@[simp] theorem State.setFp_cause (v : Word) : (s.setFp v).cause = s.cause := rfl
@[simp] theorem State.setFp_stack (v : Word) : (s.setFp v).stack = s.stack := rfl
@[simp] theorem State.setFp_store (v : Word) : (s.setFp v).store = s.store := rfl
@[simp] theorem State.setFp_request (v : Word) : (s.setFp v).request = s.request := rfl
@[simp] theorem State.setFp_code (v : Word) : (s.setFp v).code = s.code := rfl
@[simp] theorem State.setFp_params (v : Word) : (s.setFp v).params = s.params := rfl
@[simp] theorem State.setFp_commands (v : Word) : (s.setFp v).commands = s.commands := rfl
@[simp] theorem State.setFp_answers (v : Word) : (s.setFp v).answers = s.answers := rfl
@[simp] theorem State.setFp_requests (v : Word) : (s.setFp v).requests = s.requests := rfl
@[simp] theorem State.setFp_draws (v : Word) : (s.setFp v).draws = s.draws := rfl
@[simp] theorem State.setFp_stackDraw (v : Word) : (s.setFp v).stackDraw = s.stackDraw := rfl
@[simp] theorem State.setFp_storeDraw (v : Word) : (s.setFp v).storeDraw = s.storeDraw := rfl

/-! ### State.setStatus -/

@[simp] theorem State.setStatus_pc (v : Status) : (s.setStatus v).pc = s.pc := rfl
@[simp] theorem State.setStatus_sp (v : Status) : (s.setStatus v).sp = s.sp := rfl
@[simp] theorem State.setStatus_fp (v : Status) : (s.setStatus v).fp = s.fp := rfl
@[simp] theorem State.setStatus_status (v : Status) : (s.setStatus v).status = v := rfl
@[simp] theorem State.setStatus_cause (v : Status) : (s.setStatus v).cause = s.cause := rfl
@[simp] theorem State.setStatus_stack (v : Status) : (s.setStatus v).stack = s.stack := rfl
@[simp] theorem State.setStatus_store (v : Status) : (s.setStatus v).store = s.store := rfl
@[simp] theorem State.setStatus_request (v : Status) : (s.setStatus v).request = s.request := rfl
@[simp] theorem State.setStatus_code (v : Status) : (s.setStatus v).code = s.code := rfl
@[simp] theorem State.setStatus_params (v : Status) : (s.setStatus v).params = s.params := rfl
@[simp] theorem State.setStatus_commands (v : Status) : (s.setStatus v).commands = s.commands := rfl
@[simp] theorem State.setStatus_answers (v : Status) : (s.setStatus v).answers = s.answers := rfl
@[simp] theorem State.setStatus_requests (v : Status) : (s.setStatus v).requests = s.requests := rfl
@[simp] theorem State.setStatus_draws (v : Status) : (s.setStatus v).draws = s.draws := rfl
@[simp] theorem State.setStatus_stackDraw (v : Status) : (s.setStatus v).stackDraw = s.stackDraw := rfl
@[simp] theorem State.setStatus_storeDraw (v : Status) : (s.setStatus v).storeDraw = s.storeDraw := rfl

/-! ### State.setStack -/

@[simp] theorem State.setStack_pc (m : Memory) : (s.setStack m).pc = s.pc := rfl
@[simp] theorem State.setStack_sp (m : Memory) : (s.setStack m).sp = s.sp := rfl
@[simp] theorem State.setStack_fp (m : Memory) : (s.setStack m).fp = s.fp := rfl
@[simp] theorem State.setStack_status (m : Memory) : (s.setStack m).status = s.status := rfl
@[simp] theorem State.setStack_cause (m : Memory) : (s.setStack m).cause = s.cause := rfl
@[simp] theorem State.setStack_stack (m : Memory) : (s.setStack m).stack = m := rfl
@[simp] theorem State.setStack_store (m : Memory) : (s.setStack m).store = s.store := rfl
@[simp] theorem State.setStack_request (m : Memory) : (s.setStack m).request = s.request := rfl
@[simp] theorem State.setStack_code (m : Memory) : (s.setStack m).code = s.code := rfl
@[simp] theorem State.setStack_params (m : Memory) : (s.setStack m).params = s.params := rfl
@[simp] theorem State.setStack_commands (m : Memory) : (s.setStack m).commands = s.commands := rfl
@[simp] theorem State.setStack_answers (m : Memory) : (s.setStack m).answers = s.answers := rfl
@[simp] theorem State.setStack_requests (m : Memory) : (s.setStack m).requests = s.requests := rfl
@[simp] theorem State.setStack_draws (m : Memory) : (s.setStack m).draws = s.draws := rfl
@[simp] theorem State.setStack_stackDraw (m : Memory) : (s.setStack m).stackDraw = s.stackDraw := rfl
@[simp] theorem State.setStack_storeDraw (m : Memory) : (s.setStack m).storeDraw = s.storeDraw := rfl

/-! ### State.setStore -/

@[simp] theorem State.setStore_pc (m : Memory) : (s.setStore m).pc = s.pc := rfl
@[simp] theorem State.setStore_sp (m : Memory) : (s.setStore m).sp = s.sp := rfl
@[simp] theorem State.setStore_fp (m : Memory) : (s.setStore m).fp = s.fp := rfl
@[simp] theorem State.setStore_status (m : Memory) : (s.setStore m).status = s.status := rfl
@[simp] theorem State.setStore_cause (m : Memory) : (s.setStore m).cause = s.cause := rfl
@[simp] theorem State.setStore_stack (m : Memory) : (s.setStore m).stack = s.stack := rfl
@[simp] theorem State.setStore_store (m : Memory) : (s.setStore m).store = m := rfl
@[simp] theorem State.setStore_request (m : Memory) : (s.setStore m).request = s.request := rfl
@[simp] theorem State.setStore_code (m : Memory) : (s.setStore m).code = s.code := rfl
@[simp] theorem State.setStore_params (m : Memory) : (s.setStore m).params = s.params := rfl
@[simp] theorem State.setStore_commands (m : Memory) : (s.setStore m).commands = s.commands := rfl
@[simp] theorem State.setStore_answers (m : Memory) : (s.setStore m).answers = s.answers := rfl
@[simp] theorem State.setStore_requests (m : Memory) : (s.setStore m).requests = s.requests := rfl
@[simp] theorem State.setStore_draws (m : Memory) : (s.setStore m).draws = s.draws := rfl
@[simp] theorem State.setStore_stackDraw (m : Memory) : (s.setStore m).stackDraw = s.stackDraw := rfl
@[simp] theorem State.setStore_storeDraw (m : Memory) : (s.setStore m).storeDraw = s.storeDraw := rfl

/-! ### State.countDraw -/

@[simp] theorem State.countDraw_pc : s.countDraw.pc = s.pc := rfl
@[simp] theorem State.countDraw_sp : s.countDraw.sp = s.sp := rfl
@[simp] theorem State.countDraw_fp : s.countDraw.fp = s.fp := rfl
@[simp] theorem State.countDraw_status : s.countDraw.status = s.status := rfl
@[simp] theorem State.countDraw_cause : s.countDraw.cause = s.cause := rfl
@[simp] theorem State.countDraw_stack : s.countDraw.stack = s.stack := rfl
@[simp] theorem State.countDraw_store : s.countDraw.store = s.store := rfl
@[simp] theorem State.countDraw_request : s.countDraw.request = s.request := rfl
@[simp] theorem State.countDraw_code : s.countDraw.code = s.code := rfl
@[simp] theorem State.countDraw_params : s.countDraw.params = s.params := rfl
@[simp] theorem State.countDraw_commands : s.countDraw.commands = s.commands := rfl
@[simp] theorem State.countDraw_answers : s.countDraw.answers = s.answers := rfl
@[simp] theorem State.countDraw_requests : s.countDraw.requests = s.requests := rfl
@[simp] theorem State.countDraw_draws : s.countDraw.draws = s.draws + 1 := rfl
@[simp] theorem State.countDraw_stackDraw : s.countDraw.stackDraw = s.stackDraw := rfl
@[simp] theorem State.countDraw_storeDraw : s.countDraw.storeDraw = s.storeDraw := rfl

/-! ### State.resume -/

@[simp] theorem State.resume_pc : s.resume.pc = s.pc := rfl
@[simp] theorem State.resume_sp : s.resume.sp = s.sp := rfl
@[simp] theorem State.resume_fp : s.resume.fp = s.fp := rfl
@[simp] theorem State.resume_status : s.resume.status = .running := rfl
@[simp] theorem State.resume_cause : s.resume.cause = s.cause := rfl
@[simp] theorem State.resume_stack : s.resume.stack = s.stack := rfl
@[simp] theorem State.resume_store : s.resume.store = s.store := rfl
@[simp] theorem State.resume_request : s.resume.request = none := rfl
@[simp] theorem State.resume_code : s.resume.code = s.code := rfl
@[simp] theorem State.resume_params : s.resume.params = s.params := rfl
@[simp] theorem State.resume_commands : s.resume.commands = s.commands := rfl
@[simp] theorem State.resume_answers : s.resume.answers = s.answers := rfl
@[simp] theorem State.resume_requests : s.resume.requests = s.requests := rfl
@[simp] theorem State.resume_draws : s.resume.draws = s.draws := rfl
@[simp] theorem State.resume_stackDraw : s.resume.stackDraw = s.stackDraw := rfl
@[simp] theorem State.resume_storeDraw : s.resume.storeDraw = s.storeDraw := rfl

/-! ### raise -/

@[simp] theorem raise_pc (c : Cause) : (raise c s).pc = Config.faultPc s.draws := rfl
@[simp] theorem raise_sp (c : Cause) : (raise c s).sp = Config.faultSp s.draws := rfl
@[simp] theorem raise_fp (c : Cause) : (raise c s).fp = Config.faultFp s.draws := rfl
@[simp] theorem raise_status (c : Cause) : (raise c s).status = .faulted := rfl
@[simp] theorem raise_cause (c : Cause) : (raise c s).cause = c := rfl
@[simp] theorem raise_stack (c : Cause) : (raise c s).stack = [] := rfl
@[simp] theorem raise_store (c : Cause) : (raise c s).store = s.store := rfl
@[simp] theorem raise_request (c : Cause) : (raise c s).request = s.request := rfl
@[simp] theorem raise_code (c : Cause) : (raise c s).code = s.code := rfl
@[simp] theorem raise_params (c : Cause) : (raise c s).params = s.params := rfl
@[simp] theorem raise_commands (c : Cause) : (raise c s).commands = s.commands := rfl
@[simp] theorem raise_answers (c : Cause) : (raise c s).answers = s.answers := rfl
@[simp] theorem raise_requests (c : Cause) : (raise c s).requests = s.requests := rfl
@[simp] theorem raise_draws (c : Cause) : (raise c s).draws = s.draws + 1 := rfl
@[simp] theorem raise_stackDraw (c : Cause) : (raise c s).stackDraw = s.draws := rfl
@[simp] theorem raise_storeDraw (c : Cause) : (raise c s).storeDraw = s.storeDraw := rfl

/-! ### hostCall -/

@[simp] theorem hostCall_pc (n : Word) (as : List Word) : (hostCall n as s).pc = s.pc := rfl
@[simp] theorem hostCall_sp (n : Word) (as : List Word) : (hostCall n as s).sp = s.sp := rfl
@[simp] theorem hostCall_fp (n : Word) (as : List Word) : (hostCall n as s).fp = s.fp := rfl
@[simp] theorem hostCall_status (n : Word) (as : List Word) : (hostCall n as s).status = .waitingHost := rfl
@[simp] theorem hostCall_cause (n : Word) (as : List Word) : (hostCall n as s).cause = s.cause := rfl
@[simp] theorem hostCall_stack (n : Word) (as : List Word) : (hostCall n as s).stack = s.stack := rfl
@[simp] theorem hostCall_store (n : Word) (as : List Word) : (hostCall n as s).store = s.store := rfl
@[simp] theorem hostCall_request (n : Word) (as : List Word) : (hostCall n as s).request = some ⟨n, as⟩ := rfl
@[simp] theorem hostCall_code (n : Word) (as : List Word) : (hostCall n as s).code = s.code := rfl
@[simp] theorem hostCall_params (n : Word) (as : List Word) : (hostCall n as s).params = s.params := rfl
@[simp] theorem hostCall_commands (n : Word) (as : List Word) : (hostCall n as s).commands = s.commands := rfl
@[simp] theorem hostCall_answers (n : Word) (as : List Word) : (hostCall n as s).answers = s.answers := rfl
@[simp] theorem hostCall_requests (n : Word) (as : List Word) : (hostCall n as s).requests = s.requests ++ [⟨n, as⟩] := rfl
@[simp] theorem hostCall_draws (n : Word) (as : List Word) : (hostCall n as s).draws = s.draws := rfl
@[simp] theorem hostCall_stackDraw (n : Word) (as : List Word) : (hostCall n as s).stackDraw = s.stackDraw := rfl
@[simp] theorem hostCall_storeDraw (n : Word) (as : List Word) : (hostCall n as s).storeDraw = s.storeDraw := rfl

/-! ### An update twice -/

@[simp] theorem State.setPc_setPc (v w : Word) : (s.setPc v).setPc w = s.setPc w := rfl
@[simp] theorem State.setSp_setSp (v w : Word) : (s.setSp v).setSp w = s.setSp w := rfl
@[simp] theorem State.setFp_setFp (v w : Word) : (s.setFp v).setFp w = s.setFp w := rfl
@[simp] theorem State.setStack_setStack (m n : Memory) : (s.setStack m).setStack n = s.setStack n := rfl
@[simp] theorem State.setStore_setStore (m n : Memory) : (s.setStore m).setStore n = s.setStore n := rfl

end Sys2Proof.Machine
end

