-- ==== Sys2Proof/Laws/Memory.lean ====
section
/-! SUPPORT. The laws of the byte memories: what a read gives after a write, and that every operation keeps the
canonical form. -/

namespace Sys2Proof.Machine

theorem Memory.read?_write (m : Memory) (a k : Nat) (b : Byte) :
    (m.write a b).read? k = if k = a then some b else m.read? k := by
  induction m with
  | nil => simp [Memory.write, Memory.read?, eq_comm]
  | cons x m ih =>
    obtain ⟨i, c⟩ := x
    simp only [Memory.write]
    split_ifs with h1 h2 h3 h3 <;> simp_all [Memory.read?, eq_comm]

theorem Memory.mem_write {m : Memory} {a : Nat} {b : Byte} {x : Host.Cell} (h : x ∈ m.write a b) :
    x = (a, b) ∨ x ∈ m := by
  induction m with
  | nil => simpa [Memory.write] using h
  | cons y m ih =>
    obtain ⟨i, c⟩ := y
    simp only [Memory.write] at h
    split_ifs at h with h1 h2 <;> simp only [List.mem_cons] at h ⊢ <;> tauto

/-- A write keeps the addresses strictly rising. -/
theorem Memory.wf_write {m : Memory} (h : m.wf) (a : Nat) (b : Byte) : (m.write a b).wf := by
  induction m with
  | nil => simp [Memory.write, Memory.wf]
  | cons y m ih =>
    obtain ⟨i, c⟩ := y
    obtain ⟨h1, h2⟩ := List.pairwise_cons.1 h
    simp only [Memory.write]
    split_ifs with l e
    · refine List.pairwise_cons.2 ⟨?_, h⟩
      intro x hx
      rcases List.mem_cons.1 hx with rfl | hx
      · exact l
      · exact l.trans (h1 x hx)
    · subst e
      exact List.pairwise_cons.2 ⟨h1, h2⟩
    · refine List.pairwise_cons.2 ⟨?_, ih h2⟩
      intro x hx
      rcases Memory.mem_write hx with rfl | hx
      · exact lt_of_le_of_ne (not_lt.1 l) (Ne.symm e)
      · exact h1 x hx

/-- A write below the capacity keeps every byte below it. -/
theorem Memory.below_write {m : Memory} {cap a : Nat} (h : m.below cap) (ha : a < cap) (b : Byte) :
    (m.write a b).below cap := by
  intro x hx
  rcases Memory.mem_write hx with rfl | hx
  · exact ha
  · exact h x hx

theorem Memory.read?_writeBytes (bs : List Byte) (m : Memory) (a k : Nat) :
    (m.writeBytes a bs).read? k =
      if a ≤ k ∧ k < a + bs.length then bs[k - a]? else m.read? k := by
  induction bs generalizing m a with
  | nil => simp [Memory.writeBytes]
  | cons b bs ih =>
    simp only [Memory.writeBytes, ih, Memory.read?_write, List.length_cons]
    by_cases h : k = a
    · subst h; simp
    · by_cases h' : a + 1 ≤ k ∧ k < a + 1 + bs.length
      · have e : k - a = (k - (a + 1)) + 1 := by omega
        rw [if_pos h', if_pos (by omega), e, List.getElem?_cons_succ]
      · rw [if_neg h', if_neg h, if_neg (by omega)]

/-- A byte that is read is listed. -/
theorem Memory.mem_of_read? {m : Memory} {a : Nat} {b : Byte} (h : m.read? a = some b) : (a, b) ∈ m := by
  induction m with
  | nil => simp [Memory.read?] at h
  | cons x m ih =>
    obtain ⟨i, c⟩ := x
    simp only [Memory.read?] at h
    split_ifs at h with e
    · subst e; simp_all
    · exact List.mem_cons_of_mem _ (ih h)

/-- In canonical form a listed byte is what is read. -/
theorem Memory.read?_of_mem {m : Memory} (hm : m.wf) {a : Nat} {b : Byte} (h : (a, b) ∈ m) :
    m.read? a = some b := by
  induction m with
  | nil => simp at h
  | cons x m ih =>
    obtain ⟨i, c⟩ := x
    obtain ⟨h1, h2⟩ := List.pairwise_cons.1 hm
    rcases List.mem_cons.1 h with e | h
    · simp_all [Memory.read?]
    · have := h1 _ h
      simp only [Memory.read?]
      rw [if_neg (by simp at this; omega)]
      exact ih h2 h

/-- Memories in canonical form that read the same are the same data. -/
theorem Memory.ext_of_wf {m n : Memory} (hm : m.wf) (hn : n.wf) (h : ∀ a, m.read? a = n.read? a) : m = n := by
  have hmem : ∀ x, x ∈ m ↔ x ∈ n := by
    rintro ⟨a, b⟩
    exact ⟨fun hx => Memory.mem_of_read? ((h a) ▸ Memory.read?_of_mem hm hx),
      fun hx => Memory.mem_of_read? ((h a).symm ▸ Memory.read?_of_mem hn hx)⟩
  have nd : ∀ {l : Memory}, l.wf → l.Nodup := fun hl =>
    hl.imp fun {x y} hxy e => absurd (congrArg Prod.fst e) (Nat.ne_of_lt hxy)
  refine List.Perm.eq_of_pairwise (le := fun x y => x.1 < y.1) ?_ hm hn
    ((List.perm_ext_iff_of_nodup (nd hm) (nd hn)).2 hmem)
  intro x y _ _ h1 h2
  exact absurd h1 (Nat.lt_asymm h2)

theorem Memory.wf_writeBytes (bs : List Byte) {m : Memory} (h : m.wf) (a : Nat) : (m.writeBytes a bs).wf := by
  induction bs generalizing m a with
  | nil => exact h
  | cons b bs ih => exact ih (Memory.wf_write h a b) (a + 1)

theorem Memory.below_writeBytes (bs : List Byte) {m : Memory} {cap a : Nat} (h : m.below cap)
    (ha : a + bs.length ≤ cap) : (m.writeBytes a bs).below cap := by
  induction bs generalizing m a with
  | nil => exact h
  | cons b bs ih =>
    simp only [List.length_cons] at ha
    exact ih (Memory.below_write h (by omega) b) (by omega)

end Sys2Proof.Machine
end

