-- ==== Sys2Proof/Laws/Ops.lean ====
section
/-! SUPPORT. What each shared operation does, said once: for each, when it fails and with what, and what it
leaves when it does not. The `_live` lemmas say it on the stack as it is drawn, `s.live = pre ++ bytes`. -/

namespace Sys2Proof.Machine

/-! ### The live stack -/

@[simp] theorem State.length_stackBytes (s : State) (k n : Nat) : (s.stackBytes k n).length = n := by
  simp [State.stackBytes]

theorem State.getElem_stackBytes (s : State) (k n i : Nat) (h : i < (s.stackBytes k n).length) :
    (s.stackBytes k n)[i] = s.stackByte (k + i) := by
  simp [State.stackBytes]

@[simp] theorem State.length_live (s : State) : s.live.length = s.sp.toNat := by
  simp [State.live]

theorem State.getElem_live (s : State) (i : Nat) (h : i < s.live.length) : s.live[i] = s.stackByte i := by
  simp [State.live, State.getElem_stackBytes]

/-- The live stack is bs exactly when sp counts bs and the bytes of S are those of bs. -/
theorem State.live_eq_iff (s : State) (bs : List Byte) :
    s.live = bs ↔ s.sp.toNat = bs.length ∧ ∀ i (h : i < bs.length), s.stackByte i = bs[i] := by
  constructor
  · rintro rfl
    exact ⟨s.length_live.symm, fun i h => (s.getElem_live i h).symm⟩
  · rintro ⟨h1, h2⟩
    refine List.ext_getElem (by simp [h1]) fun i hi hj => ?_
    rw [s.getElem_live i hi, h2 i hj]

/-- The live stack splits below its top n bytes. -/
theorem State.live_split (s : State) (n : Nat) (h : n ≤ s.sp.toNat) :
    s.live = s.stackBytes 0 (s.sp.toNat - n) ++ s.stackBytes (s.sp.toNat - n) n := by
  rw [State.live_eq_iff]
  refine ⟨by simp [h], fun i hi => ?_⟩
  rw [List.getElem_append]
  split
  · simp [State.getElem_stackBytes]
  · rename_i h'
    simp only [State.length_stackBytes, not_lt] at h'
    simp [State.getElem_stackBytes, h']

/-- The top bytes of a live stack are read at their indices. -/
theorem State.stackBytes_of_live {s : State} {pre bs : List Byte} (h : s.live = pre ++ bs) :
    s.stackBytes pre.length bs.length = bs := by
  obtain ⟨_, h2⟩ := (s.live_eq_iff _).1 h
  refine List.ext_getElem (by simp) fun i hi hj => ?_
  rw [State.getElem_stackBytes, h2 (pre.length + i) (by simpa using hj)]
  simp

theorem State.sp_of_live {s : State} {pre bs : List Byte} (h : s.live = pre ++ bs) :
    s.sp.toNat = pre.length + bs.length := by
  rw [← s.length_live, h, List.length_append]

theorem State.stackByte_congr {s t : State} (h1 : t.stack = s.stack) (h2 : t.stackDraw = s.stackDraw) (i : Nat) :
    t.stackByte i = s.stackByte i := by
  simp [State.stackByte, h1, h2]

@[simp] theorem State.stackByte_setSp (s : State) (v : Word) (i : Nat) : (s.setSp v).stackByte i = s.stackByte i := rfl
@[simp] theorem State.stackByte_setFp (s : State) (v : Word) (i : Nat) : (s.setFp v).stackByte i = s.stackByte i := rfl
@[simp] theorem State.stackByte_setPc (s : State) (v : Word) (i : Nat) : (s.setPc v).stackByte i = s.stackByte i := rfl

/-- `sp` lowered to the bottom of the top bytes. -/
theorem State.live_setSp {s : State} {pre bs : List Byte} (h : s.live = pre ++ bs) :
    (s.setSp (BitVec.ofNat 64 pre.length)).live = pre := by
  obtain ⟨h1, h2⟩ := (s.live_eq_iff _).1 h
  have hs := s.sp.isLt
  rw [State.live_eq_iff]
  refine ⟨?_, fun i hi => ?_⟩
  · simp only [List.length_append] at h1
    simp only [State.setSp_sp, BitVec.toNat_ofNat]
    exact Nat.mod_eq_of_lt (by omega)
  · rw [State.stackByte_setSp, h2 i (by simp; omega), List.getElem_append_left hi]

theorem State.sp_sub {s : State} {pre bs : List Byte} (h : s.live = pre ++ bs) :
    s.sp - BitVec.ofNat 64 bs.length = BitVec.ofNat 64 pre.length := by
  have h1 := State.sp_of_live h
  have hs := s.sp.isLt
  apply BitVec.eq_of_toNat_eq
  simp only [BitVec.toNat_sub, BitVec.toNat_ofNat]
  omega

/-! ### Frames compose -/

theorem StackStep.stackByte {s t : State} {k n : Nat} (h : StackStep s t k n) {i : Nat} (hi : i < k ∨ k + n ≤ i) :
    t.stackByte i = s.stackByte i := h.2 i hi

/-- A frame that starts after `sp` moved is one that starts before. -/
theorem StackStep.of_setSp {s t : State} {v : Word} {k n : Nat} (h : StackStep (s.setSp v) t k n) :
    StackStep s t k n :=
  ⟨h.1, h.2⟩

theorem StackStep.setSp (s : State) (v : Word) (k n : Nat) : StackStep s (s.setSp v) k n :=
  ⟨rfl, fun _ _ => rfl⟩

/-! ### Pushing -/

theorem pushBytes_overflow {bs : List Byte} {s : State} (h : s.params.stackCap < s.sp.toNat + bs.length) :
    pushBytes bs s = .error .stackOverflow := by
  simp [pushBytes, h]

/-- What `pushBytes` answers when it answers a state. -/
theorem pushBytes_ok {bs : List Byte} {s t : State} (h : pushBytes bs s = .ok t) :
    s.sp.toNat + bs.length ≤ s.params.stackCap ∧
    t = (s.setStack (s.stack.writeBytes s.sp.toNat bs)).setSp (s.sp + BitVec.ofNat 64 bs.length) := by
  simp only [pushBytes] at h
  split_ifs at h with hc
  exact ⟨by omega, (Except.ok.inj h).symm⟩

/-- A push with room puts its bytes on top and stores nothing else. -/
theorem pushBytes_live (bs : List Byte) (s : State) (hc : s.sp.toNat + bs.length ≤ s.params.stackCap)
    (h64 : s.sp.toNat + bs.length < 2 ^ 64) :
    ∃ t, pushBytes bs s = .ok t ∧ t.live = s.live ++ bs ∧ t.sp.toNat = s.sp.toNat + bs.length ∧
      StackStep s t s.sp.toNat bs.length := by
  have hsp : (s.sp + BitVec.ofNat 64 bs.length).toNat = s.sp.toNat + bs.length := by
    simp only [BitVec.toNat_add, BitVec.toNat_ofNat]
    omega
  refine ⟨_, if_neg (by omega), ?_, hsp, rfl, fun i hi => ?_⟩
  · rw [State.live_eq_iff]
    refine ⟨by simp [hsp], fun i hi => ?_⟩
    simp only [State.stackByte, State.setSp_stack, State.setStack_stack, State.setSp_stackDraw,
      State.setStack_stackDraw, Memory.read?_writeBytes]
    simp only [List.length_append, State.length_live] at hi
    by_cases h : s.sp.toNat ≤ i
    · rw [if_pos ⟨h, hi⟩, List.getElem_append_right (by simpa using h)]
      simp [List.getElem?_eq_getElem (show i - s.sp.toNat < bs.length by omega)]
    · rw [if_neg (by omega), List.getElem_append_left (by simpa using h), State.getElem_live]
      rfl
  · simp only [State.stackByte, State.setSp_stack, State.setStack_stack, State.setSp_stackDraw,
      State.setStack_stackDraw, Memory.read?_writeBytes]
    rw [if_neg (by omega)]

theorem push1_eq (b : Byte) (s : State) : push1 b s = pushN b s := by
  have : bytesOf b = [b] := by
    simp [bytesOf]
  simp [push1, pushN, this]

theorem pushF32_eq (x : BitVec 32) (s : State) : pushF32 x s = pushN x s := rfl

theorem pushF64_eq (x : BitVec 64) (s : State) : pushF64 x s = pushN x s := rfl

/-- `pushN` with room. -/
theorem pushN_live {w : Nat} (v : BitVec w) {s : State} {pre : List Byte} (hp : s.live = pre)
    (hc : pre.length + w / 8 ≤ s.params.stackCap) (h64 : pre.length + w / 8 < 2 ^ 64) :
    ∃ t, pushN v s = .ok t ∧ t.live = pre ++ bytesOf v ∧ t.sp.toNat = pre.length + w / 8 ∧
      StackStep s t pre.length (w / 8) := by
  subst hp
  rw [State.length_live] at *
  have := pushBytes_live (bytesOf v) s (by simpa using hc) (by simpa using h64)
  simpa only [pushN, length_bytesOf] using this

theorem pushN_overflow {w : Nat} (v : BitVec w) {s : State} (h : s.params.stackCap < s.sp.toNat + w / 8) :
    pushN v s = .error .stackOverflow :=
  pushBytes_overflow (by simpa using h)

/-! ### Popping -/

theorem popBytes_underflow {n : Nat} {s : State} (h : s.sp.toNat < n) :
    popBytes n s = .error .stackUnderflow := if_pos h

/-- What `popBytes` answers when it answers. -/
theorem popBytes_ok {n : Nat} {s t : State} {bs : List Byte} (h : popBytes n s = .ok (bs, t)) :
    n ≤ s.sp.toNat ∧ bs = s.stackBytes (s.sp.toNat - n) n ∧ t = s.setSp (s.sp - BitVec.ofNat 64 n) := by
  simp only [popBytes] at h
  split_ifs at h with hc
  obtain ⟨rfl, rfl⟩ := Prod.mk.inj (Except.ok.inj h)
  exact ⟨not_lt.1 hc, rfl, rfl⟩

/-- A pop takes the top bytes. -/
theorem popBytes_live {s : State} {pre bs : List Byte} (h : s.live = pre ++ bs) :
    popBytes bs.length s = .ok (bs, s.setSp (BitVec.ofNat 64 pre.length)) := by
  have h1 := State.sp_of_live h
  rw [popBytes, if_neg (by omega), State.sp_sub h, show s.sp.toNat - bs.length = pre.length by omega,
    State.stackBytes_of_live h]

theorem popN_underflow {w : Nat} {s : State} (h : s.sp.toNat < w / 8) :
    popN w s = .error .stackUnderflow := by
  simp [popN, popBytes_underflow h, bind, Except.bind]

/-- `popN` takes the top value. -/
theorem popN_live {w : Nat} (hw : 8 ∣ w) {s : State} {pre : List Byte} {v : BitVec w}
    (h : s.live = pre ++ bytesOf v) :
    popN w s = .ok (v, s.setSp (BitVec.ofNat 64 pre.length)) := by
  have := popBytes_live h
  rw [length_bytesOf] at this
  simp [popN, this, bind, Except.bind, ofBytes_bytesOf hw]

/-- What `popN` answers when it answers. -/
theorem popN_ok {w : Nat} {s t : State} {v : BitVec w} (h : popN w s = .ok (v, t)) :
    w / 8 ≤ s.sp.toNat ∧ v = ofBytes w (s.stackBytes (s.sp.toNat - w / 8) (w / 8)) ∧
      t = s.setSp (s.sp - BitVec.ofNat 64 (w / 8)) := by
  simp only [popN, popBytes] at h
  split_ifs at h with hc
  · simp [bind, Except.bind] at h
  · obtain ⟨rfl, rfl⟩ := Prod.mk.inj (Except.ok.inj h)
    exact ⟨not_lt.1 hc, rfl, rfl⟩

theorem pop1_eq (s : State) : pop1 s = popN 8 s := by
  simp only [pop1, popN, popBytes]
  split_ifs with h
  · rfl
  · simp [bind, Except.bind, State.stackBytes, ofBytes]

theorem popF32_eq (s : State) : popF32 s = popN 32 s := by
  simp only [popF32, popN, popBytes]
  split_ifs with h
  · rfl
  · simp [bind, Except.bind, State.stackBytes, deser32_eq_ofBytes, List.range_succ]

theorem popF64_eq (s : State) : popF64 s = popN 64 s := by
  simp only [popF64, popN, popBytes]
  split_ifs with h
  · rfl
  · simp [bind, Except.bind, State.stackBytes, deser64_eq_ofBytes, List.range_succ]

theorem popPairF32_eq (s : State) : popPairF32 s = popPair 32 s := by
  simp [popPairF32, popPair, popF32_eq]

theorem popPairF64_eq (s : State) : popPairF64 s = popPair 64 s := by
  simp [popPairF64, popPair, popF64_eq]

theorem dropBytes_underflow {n : Nat} {s : State} (h : s.sp.toNat < n) :
    dropBytes n s = .error .stackUnderflow := if_pos h

theorem dropBytes_live {s : State} {pre bs : List Byte} (h : s.live = pre ++ bs) :
    dropBytes bs.length s = .ok (s.setSp (BitVec.ofNat 64 pre.length)) := by
  have h1 := State.sp_of_live h
  rw [dropBytes, if_neg (by omega), State.sp_sub h]

/-- What `dropBytes` answers when it answers. -/
theorem dropBytes_ok {n : Nat} {s t : State} (h : dropBytes n s = .ok t) :
    n ≤ s.sp.toNat ∧ t = s.setSp (s.sp - BitVec.ofNat 64 n) := by
  simp only [dropBytes] at h
  split_ifs at h with hc
  exact ⟨not_lt.1 hc, (Except.ok.inj h).symm⟩

/-- Two operands: the right one is on top. -/
theorem popPair_live {w : Nat} (hw : 8 ∣ w) {s : State} {pre : List Byte} {a b : BitVec w}
    (h : s.live = pre ++ bytesOf a ++ bytesOf b) :
    popPair w s = .ok ((a, b), s.setSp (BitVec.ofNat 64 pre.length)) := by
  have h2 := State.live_setSp h
  simp only [popPair, popN_live hw h, bind, Except.bind, popN_live hw h2]
  rfl

theorem popPair_underflow {w : Nat} {s : State} (h : s.sp.toNat < 2 * (w / 8)) :
    popPair w s = .error .stackUnderflow := by
  by_cases h1 : s.sp.toNat < w / 8
  · simp [popPair, popN_underflow h1, bind, Except.bind]
  · obtain ⟨v, t, hv⟩ : ∃ v t, popN w s = .ok (v, t) := by
      simp only [popN, popBytes, if_neg h1, bind, Except.bind]
      exact ⟨_, _, rfl⟩
    obtain ⟨_, _, rfl⟩ := popN_ok hv
    have := s.sp.isLt
    have h2 : (s.setSp (s.sp - BitVec.ofNat 64 (w / 8))).sp.toNat < w / 8 := by
      simp only [State.setSp_sp, BitVec.toNat_sub, BitVec.toNat_ofNat]
      omega
    simp [popPair, hv, bind, Except.bind, popN_underflow h2]

/-! ### The shapes of instruction -/

/-- A value pushed after the operands came off, with no more bytes than came off. -/
theorem pushN_after {r : Nat} (v : BitVec r) {s : State} {pre bs : List Byte} (h : s.live = pre ++ bs)
    (hcap : s.sp.toNat ≤ s.params.stackCap) (hr : r / 8 ≤ bs.length) :
    ∃ t, pushN v (s.setSp (BitVec.ofNat 64 pre.length)) = .ok t ∧ t.live = pre ++ bytesOf v ∧
      StackStep s t pre.length (r / 8) := by
  have h1 := State.sp_of_live h
  have hs := s.sp.isLt
  obtain ⟨t, h2, h3, _, h4⟩ := pushN_live v (State.live_setSp h) (by simp; omega) (by omega)
  exact ⟨t, h2, h3, h4.of_setSp⟩

theorem binary_live {w r : Nat} (hw : 8 ∣ w) (hr : r / 8 ≤ 2 * (w / 8)) (f : BitVec w → BitVec w → BitVec r)
    {s : State} {pre : List Byte} {a b : BitVec w} (h : s.live = pre ++ bytesOf a ++ bytesOf b)
    (hcap : s.sp.toNat ≤ s.params.stackCap) :
    ∃ t, binary w f s = .ok t ∧ t.live = pre ++ bytesOf (f a b) ∧ StackStep s t pre.length (r / 8) := by
  rw [List.append_assoc] at h
  obtain ⟨t, h1, h2⟩ := pushN_after (f a b) h hcap (by simp; omega)
  refine ⟨t, ?_, h2⟩
  simp only [binary, popPair_live hw (by simpa using h), bind, Except.bind]
  exact h1

theorem binary_underflow {w r : Nat} (f : BitVec w → BitVec w → BitVec r) {s : State}
    (h : s.sp.toNat < 2 * (w / 8)) : binary w f s = .error .stackUnderflow := by
  simp [binary, popPair_underflow h, bind, Except.bind]

theorem unary_live {w r : Nat} (hw : 8 ∣ w) (hr : r / 8 ≤ w / 8) (f : BitVec w → BitVec r)
    {s : State} {pre : List Byte} {a : BitVec w} (h : s.live = pre ++ bytesOf a)
    (hcap : s.sp.toNat ≤ s.params.stackCap) :
    ∃ t, unary w f s = .ok t ∧ t.live = pre ++ bytesOf (f a) ∧ StackStep s t pre.length (r / 8) := by
  obtain ⟨t, h1, h2⟩ := pushN_after (f a) h hcap (by simpa using hr)
  refine ⟨t, ?_, h2⟩
  simp only [unary, popN_live hw h, bind, Except.bind]
  exact h1

theorem unary_underflow {w r : Nat} (f : BitVec w → BitVec r) {s : State}
    (h : s.sp.toNat < w / 8) : unary w f s = .error .stackUnderflow := by
  simp [unary, popN_underflow h, bind, Except.bind]

theorem compareF32_eq (rel : BitVec 32 → BitVec 32 → Bool) (s : State) : compareF32 rel s = compare 32 rel s := by
  simp [compareF32, compare, binary, popPairF32_eq, push1_eq]

theorem compareF64_eq (rel : BitVec 64 → BitVec 64 → Bool) (s : State) : compareF64 rel s = compare 64 rel s := by
  simp [compareF64, compare, binary, popPairF64_eq, push1_eq]

/-! ### The store, the frame, the host -/

theorem storeRead_ok {a : Nat} {s : State} {b : Byte} (h : storeRead a s = .ok b) :
    a < s.params.storeCap ∧ b = s.storeByte a := by
  simp only [storeRead] at h
  split_ifs at h with hc
  exact ⟨not_le.1 hc, (Except.ok.inj h).symm⟩

theorem storeWrite_ok {a : Nat} {b : Byte} {s t : State} (h : storeWrite a b s = .ok t) :
    a < s.params.storeCap ∧ t = s.setStore (s.store.write a b) := by
  simp only [storeWrite] at h
  split_ifs at h with hc
  exact ⟨not_le.1 hc, (Except.ok.inj h).symm⟩

/-- A store write changes one byte of the store. -/
theorem State.storeByte_write (s : State) (a k : Nat) (b : Byte) :
    (s.setStore (s.store.write a b)).storeByte k = if k = a then b else s.storeByte k := by
  simp only [State.storeByte, State.setStore_store, State.setStore_storeDraw, Memory.read?_write]
  split_ifs <;> rfl

theorem frameRead_ok {k : Int} {s : State} {b : Byte} (h : frameRead k s = .ok b) :
    0 ≤ k ∧ k < s.sp.toNat ∧ b = s.stackByte k.toNat := by
  simp only [frameRead] at h
  split_ifs at h with h1 h2
  exact ⟨not_lt.1 h1, not_le.1 h2, (Except.ok.inj h).symm⟩

/-- What the outcome of an instruction becomes. -/
theorem finish_ok (s t : State) : finish s (.ok t) = .next t := rfl

theorem finish_error (s : State) (c : Cause) : finish s (.error c) = .next (raise c s) := rfl

/-- Taking a fault leaves what `FaultedFrom` says. -/
theorem raise_faultedFrom (c : Cause) (s : State) : FaultedFrom s (raise c s) c :=
  ⟨rfl, fun _ => rfl⟩

end Sys2Proof.Machine
end

