-- ==== Sys2Proof/Laws/Steps.lean ====
section
/-! SUPPORT. The induction over what an instruction does, packaged once: a property of states that the primitive
updates keep (lowering `sp`, pushing bytes, and, for the instructions that do it, moving `pc`, `fp` or the store,
or drawing a free value) is kept by every shape of instruction that completes. -/

namespace Sys2Proof.Machine

/-- Two computations in sequence answer when both do. -/
theorem bind_ok {α β : Type} {x : Except Cause α} {f : α → Except Cause β} {b : β} :
    (x >>= f) = .ok b ↔ ∃ a, x = .ok a ∧ f a = .ok b := by
  cases x <;> simp [bind, Except.bind]

/-- An instruction answers the state its body leaves, or the fault it raises. -/
theorem finish_next {s t : State} {r : Except Cause State} (h : finish s r = .next t) :
    r = .ok t ∨ ∃ c, r = .error c ∧ t = raise c s := by
  cases r with
  | ok u => exact .inl (by simpa [finish] using h)
  | error c => exact .inr ⟨c, rfl, by simpa [finish] using h.symm⟩

/-- Kept by lowering `sp` and by pushing bytes. -/
structure StackClosed (P : State → Prop) : Prop where
  lower : ∀ (s : State) (v : Word), v.toNat ≤ s.sp.toNat → P s → P (s.setSp v)
  push : ∀ (bs : List Byte) (s t : State), pushBytes bs s = .ok t → P s → P t

theorem toNat_sub_le {x : Word} {n : Nat} (h : n ≤ x.toNat) : (x - BitVec.ofNat 64 n).toNat = x.toNat - n := by
  have := x.isLt
  simp only [BitVec.toNat_sub, BitVec.toNat_ofNat]
  omega

variable {P : State → Prop} (hP : StackClosed P)

include hP

theorem StackClosed.popN {w : Nat} {s t : State} {v : BitVec w} (h : popN w s = .ok (v, t)) (hs : P s) : P t := by
  obtain ⟨h1, _, rfl⟩ := popN_ok h
  exact hP.lower s _ (by rw [toNat_sub_le h1]; omega) hs

theorem StackClosed.pop1 {s t : State} {b : Byte} (h : pop1 s = .ok (b, t)) (hs : P s) : P t :=
  hP.popN (by rwa [← pop1_eq]) hs

theorem StackClosed.dropBytes {n : Nat} {s t : State} (h : dropBytes n s = .ok t) (hs : P s) : P t := by
  obtain ⟨h1, rfl⟩ := dropBytes_ok h
  exact hP.lower s _ (by rw [toNat_sub_le h1]; omega) hs

theorem StackClosed.pushN {w : Nat} {s t : State} {v : BitVec w} (h : pushN v s = .ok t) (hs : P s) : P t :=
  hP.push _ s t h hs

theorem StackClosed.push1 {s t : State} {b : Byte} (h : push1 b s = .ok t) (hs : P s) : P t :=
  hP.push _ s t h hs

theorem StackClosed.popPair {w : Nat} {s t : State} {v : BitVec w × BitVec w} (h : popPair w s = .ok (v, t))
    (hs : P s) : P t := by
  simp only [Machine.popPair, bind_ok, Prod.exists] at h
  obtain ⟨b, s1, h1, a, s2, h2, h3⟩ := h
  obtain ⟨_, rfl⟩ := Prod.mk.inj (Except.ok.inj h3)
  exact hP.popN h2 (hP.popN h1 hs)

theorem StackClosed.binary {w r : Nat} {f : BitVec w → BitVec w → BitVec r} {s t : State}
    (h : binary w f s = .ok t) (hs : P s) : P t := by
  simp only [Machine.binary, bind_ok, Prod.exists] at h
  obtain ⟨a, b, s1, h1, h2⟩ := h
  exact hP.pushN h2 (hP.popPair h1 hs)

theorem StackClosed.unary {w r : Nat} {f : BitVec w → BitVec r} {s t : State}
    (h : unary w f s = .ok t) (hs : P s) : P t := by
  simp only [Machine.unary, bind_ok, Prod.exists] at h
  obtain ⟨a, s1, h1, h2⟩ := h
  exact hP.pushN h2 (hP.popN h1 hs)

theorem StackClosed.shift {w : Nat} {f : BitVec w → Byte → BitVec w} {s t : State}
    (h : shift w f s = .ok t) (hs : P s) : P t := by
  simp only [Machine.shift, bind_ok, Prod.exists] at h
  obtain ⟨n, s1, h1, v, s2, h2, h3⟩ := h
  exact hP.pushN h3 (hP.popN h2 (hP.pop1 h1 hs))

theorem StackClosed.divideU {w : Nat} {f : BitVec w → BitVec w → BitVec w} {s t : State}
    (h : divideU w f s = .ok t) (hs : P s) : P t := by
  simp only [Machine.divideU, bind_ok, Prod.exists] at h
  obtain ⟨a, b, s1, h1, h2⟩ := h
  split_ifs at h2
  exact hP.pushN h2 (hP.popPair h1 hs)

theorem StackClosed.divideS {w : Nat} {f : BitVec w → BitVec w → BitVec w} {s t : State}
    (h : divideS w f s = .ok t) (hs : P s) : P t := by
  simp only [Machine.divideS, bind_ok, Prod.exists] at h
  obtain ⟨a, b, s1, h1, h2⟩ := h
  split_ifs at h2
  exact hP.pushN h2 (hP.popPair h1 hs)

theorem StackClosed.compare {w : Nat} {rel : BitVec w → BitVec w → Bool} {s t : State}
    (h : compare w rel s = .ok t) (hs : P s) : P t := hP.binary h hs

theorem StackClosed.compareF32 {rel : BitVec 32 → BitVec 32 → Bool} {s t : State}
    (h : compareF32 rel s = .ok t) (hs : P s) : P t := hP.compare (by rwa [← compareF32_eq]) hs

theorem StackClosed.compareF64 {rel : BitVec 64 → BitVec 64 → Bool} {s t : State}
    (h : compareF64 rel s = .ok t) (hs : P s) : P t := hP.compare (by rwa [← compareF64_eq]) hs

omit hP in
/-- Applying `FNUM` draws a free value at most. -/
theorem applyFnum_keeps (hd : ∀ s, P s → P s.countDraw) {w : Nat} {fmt : FloatFormat} {op : FloatOp} {a b : BitVec w}
    {s : State} (hs : P s) : P (applyFnum fmt op a b s).2 := by
  simp only [applyFnum]
  split_ifs
  · exact hd s hs
  · exact hs

theorem StackClosed.arithF32 (hd : ∀ s, P s → P s.countDraw) {op : FloatOp} {s t : State}
    (h : arithF32 op s = .ok t) (hs : P s) : P t := by
  simp only [Machine.arithF32, bind_ok, Prod.exists, popPairF32_eq] at h
  obtain ⟨a, b, s1, h1, h2⟩ := h
  exact hP.push _ _ _ h2 (applyFnum_keeps hd (hP.popPair h1 hs))

theorem StackClosed.arithF64 (hd : ∀ s, P s → P s.countDraw) {op : FloatOp} {s t : State}
    (h : arithF64 op s = .ok t) (hs : P s) : P t := by
  simp only [Machine.arithF64, bind_ok, Prod.exists, popPairF64_eq] at h
  obtain ⟨a, b, s1, h1, h2⟩ := h
  exact hP.push _ _ _ h2 (applyFnum_keeps hd (hP.popPair h1 hs))

theorem StackClosed.popTarget {w : Nat} {s t : State} {v : Word} (h : popTarget w s = .ok (v, t)) (hs : P s) :
    P t := by
  simp only [Machine.popTarget, bind_ok, Prod.exists] at h
  obtain ⟨a, s1, h1, h2⟩ := h
  obtain ⟨_, rfl⟩ := Prod.mk.inj (Except.ok.inj h2)
  exact hP.popN h1 hs

theorem StackClosed.popAddress {w : Nat} {s t : State} {a : Nat} (h : popAddress w s = .ok (a, t)) (hs : P s) :
    P t := by
  simp only [Machine.popAddress, bind_ok, Prod.exists] at h
  obtain ⟨a, s1, h1, h2⟩ := h
  obtain ⟨_, rfl⟩ := Prod.mk.inj (Except.ok.inj h2)
  exact hP.popN h1 hs

omit hP in
/-- What `jumpTo` answers when it answers. -/
theorem jumpTo_ok {v : Word} {s t : State} (h : jumpTo v s = .ok t) :
    v.toNat < s.codeLen ∧ t = s.setPc v := by
  simp only [jumpTo, bind_ok, checkTarget] at h
  obtain ⟨_, h1, h2⟩ := h
  split_ifs at h1 with hc
  exact ⟨not_le.1 hc, (Except.ok.inj h2).symm⟩

theorem StackClosed.jump (hj : ∀ (s : State) (v : Word), v.toNat < s.codeLen → P s → P (s.setPc v)) {w : Nat}
    {s t : State} (h : jump w s = .ok t) (hs : P s) : P t := by
  simp only [Machine.jump, bind_ok, Prod.exists] at h
  obtain ⟨v, s1, h1, h2⟩ := h
  obtain ⟨h3, rfl⟩ := jumpTo_ok h2
  exact hj _ _ h3 (hP.popTarget h1 hs)

theorem StackClosed.jumpIf (hj : ∀ (s : State) (v : Word), v.toNat < s.codeLen → P s → P (s.setPc v)) {w : Nat}
    {s t : State} (h : jumpIf w s = .ok t) (hs : P s) : P t := by
  simp only [Machine.jumpIf, bind_ok, Prod.exists] at h
  obtain ⟨v, s1, h1, c, s2, h2, h3⟩ := h
  have h4 := hP.pop1 h2 (hP.popTarget h1 hs)
  split_ifs at h3
  · obtain ⟨h5, rfl⟩ := jumpTo_ok h3
    exact hj _ _ h5 h4
  · exact Except.ok.inj h3 ▸ h4

theorem StackClosed.call (hf : ∀ (s : State) (v : Word), P s → P (s.setFp v))
    (hj : ∀ (s : State) (v : Word), v.toNat < s.codeLen → P s → P (s.setPc v)) {w : Nat} {s t : State}
    (h : call w s = .ok t) (hs : P s) : P t := by
  simp only [Machine.call, bind_ok, Prod.exists] at h
  obtain ⟨v, s1, h1, s2, h2, s3, h3, h4⟩ := h
  obtain ⟨h5, rfl⟩ := jumpTo_ok h4
  exact hj _ _ h5 (hf _ _ (hP.pushN h3 (hP.pushN h2 (hP.popTarget h1 hs))))

theorem StackClosed.ret (hf : ∀ (s : State) (v : Word), P s → P (s.setFp v))
    (hj : ∀ (s : State) (v : Word), P s → P (s.setPc v)) {w : Nat} {s t : State}
    (h : ret w s = .ok t) (hs : P s) : P t := by
  simp only [Machine.ret, bind_ok, Prod.exists] at h
  obtain ⟨v, s1, h1, h2⟩ := h
  split_ifs at h2 with hc
  simp only [bind_ok, Prod.exists] at h2
  obtain ⟨fp, s2, h2, pc, s3, h3, n, s4, h4, s5, h5, s6, h6, h7⟩ := h2
  have h8 := hP.lower s1 s1.fp (not_lt.1 hc) (hP.popN h1 hs)
  have h9 := hP.pop1 h4 (hP.popN h3 (hP.popN h2 h8))
  exact Except.ok.inj h7 ▸ hj _ _ (hf _ _ (hP.pushN h6 (hP.dropBytes h5 h9)))

theorem StackClosed.argCount {s t : State} (h : argCount s = .ok t) (hs : P s) : P t := by
  simp only [Machine.argCount, bind_ok] at h
  obtain ⟨b, _, h2⟩ := h
  exact hP.push1 h2 hs

theorem StackClosed.argByte {s t : State} (h : argByte s = .ok t) (hs : P s) : P t := by
  simp only [Machine.argByte, bind_ok, Prod.exists] at h
  obtain ⟨i, s1, h1, b, _, h2⟩ := h
  exact hP.push1 h2 (hP.pop1 h1 hs)

theorem StackClosed.pushImm
    (hj : ∀ (s : State) (n : Nat), s.pc.toNat + n ≤ s.codeLen → P s → P (s.setPc (s.pc + BitVec.ofNat 64 n)))
    {w : Nat} {imm : BitVec w} {s t : State} (h : pushImm imm s = .ok t) (hs : P s) : P t := by
  simp only [Machine.pushImm] at h
  split_ifs at h with hc
  exact hP.pushN h (hj _ _ (not_lt.1 hc) hs)

theorem StackClosed.load {w : Nat} {s t : State} (h : load w s = .ok t) (hs : P s) : P t := by
  simp only [Machine.load, bind_ok, Prod.exists] at h
  obtain ⟨a, s1, h1, b, _, h2⟩ := h
  exact hP.push1 h2 (hP.popAddress h1 hs)

theorem StackClosed.storeByteAt
    (hw : ∀ (s : State) (a : Nat) (b : Byte), a < s.params.storeCap → P s → P (s.setStore (s.store.write a b)))
    {w : Nat} {s t : State} (h : storeByteAt w s = .ok t) (hs : P s) : P t := by
  simp only [Machine.storeByteAt, bind_ok, Prod.exists] at h
  obtain ⟨a, s1, h1, b, s2, h2, h3⟩ := h
  obtain ⟨h4, rfl⟩ := storeWrite_ok h3
  exact hw _ _ _ h4 (hP.pop1 h2 (hP.popAddress h1 hs))

theorem StackClosed.popArgs (n : Nat) {s t : State} {args : List Word} (h : popArgs n s = .ok (args, t))
    (hs : P s) : P t ∧ args.length = n ∧ s.sp.toNat = t.sp.toNat + 8 * n := by
  induction n generalizing s args with
  | zero =>
    obtain ⟨rfl, rfl⟩ := Prod.mk.inj (Except.ok.inj h)
    exact ⟨hs, rfl, rfl⟩
  | succ n ih =>
    simp only [Machine.popArgs, bind_ok, Prod.exists] at h
    obtain ⟨a, s1, h1, rest, s2, h2, h3⟩ := h
    obtain ⟨rfl, rfl⟩ := Prod.mk.inj (Except.ok.inj h3)
    obtain ⟨i1, i2, i3⟩ := ih h2 (hP.popN h1 hs)
    obtain ⟨h4, _, rfl⟩ := popN_ok h1
    simp only [State.setSp_sp, toNat_sub_le h4] at i3
    exact ⟨i1, by simp [i2], by omega⟩

/-- A system call that faults nowhere: the state in which its request is presented keeps P, has at most five arguments
and at least nine bytes less on the stack. -/
theorem StackClosed.syscall {s t : State} (h : syscall s = .ok t) (hs : P s) :
    ∃ num args u, P u ∧ args.length ≤ 5 ∧ u.sp.toNat + 9 ≤ s.sp.toNat ∧ takeAnswer (hostCall num args u) = .ok t := by
  simp only [Machine.syscall, bind_ok, Prod.exists] at h
  obtain ⟨n, s1, h1, h2⟩ := h
  split_ifs at h2 with hn
  simp only [bind_ok, Prod.exists] at h2
  obtain ⟨args, s2, h3, num, s3, h4, h5⟩ := h2
  obtain ⟨i1, i2, i3⟩ := hP.popArgs _ h3 (hP.pop1 h1 hs)
  refine ⟨num, args, s3, hP.popN h4 i1, by omega, ?_, h5⟩
  obtain ⟨j1, _, rfl⟩ := popN_ok h4
  obtain ⟨k1, _, rfl⟩ := popN_ok (by rwa [← pop1_eq])
  simp only [State.setSp_sp, toNat_sub_le k1] at i3
  simp only [State.setSp_sp, toNat_sub_le j1]
  omega

omit hP in
/-- From the outcome of a body to the outcome of its instruction. -/
theorem finish_keeps {s t : State} {r : Except Cause State} {Q : Prop} (h : finish s r = .next t) (hs : P s)
    (hr : r = .ok t → P s → P t) : P t ∨ (∃ c, t = raise c s) ∨ Q := by
  rcases finish_next h with h | ⟨c, _, h⟩
  · exact .inl (hr h hs)
  · exact .inr (.inl ⟨c, h⟩)

/-- What an instruction can answer, for every instruction: a state that keeps P, where P is kept by the updates that
instruction makes; or a fault; or, of `HALT` and `SYSCALL`, what their rules say. -/
theorem exec_keeps (hd : ∀ s, P s → P s.countDraw) (i : Instr)
    (hj : ∀ (s : State) (v : Word), (¬ isReturn i → v.toNat < s.codeLen) → P s → P (s.setPc v))
    (hi : ∀ (s : State) (n : Nat), s.pc.toNat + n ≤ s.codeLen → P s → P (s.setPc (s.pc + BitVec.ofNat 64 n)))
    (hf : writesFp i → ∀ (s : State) (v : Word), P s → P (s.setFp v))
    (hw : isStore i → ∀ (s : State) (a : Nat) (b : Byte), a < s.params.storeCap → P s →
      P (s.setStore (s.store.write a b)))
    {s t : State} (h : exec i s = .next t) (hs : P s) :
    P t ∨ (∃ c, t = raise c s) ∨ (i = .halt ∧ t = s.setStatus .halted) ∨ (i = .syscall ∧ syscall s = .ok t) := by
  have hj1 : ∀ (s : State) (v : Word), v.toNat < s.codeLen → P s → P (s.setPc v) := fun s v hv => hj s v fun _ => hv
  have hj2 : isReturn i → ∀ (s : State) (v : Word), P s → P (s.setPc v) := fun hr s v => hj s v fun hn => absurd hr hn
  cases i with
  | addU8 => exact finish_keeps h hs fun e => hP.binary e
  | addI8 => exact finish_keeps h hs fun e => hP.binary e
  | addU16 => exact finish_keeps h hs fun e => hP.binary e
  | addI16 => exact finish_keeps h hs fun e => hP.binary e
  | addU32 => exact finish_keeps h hs fun e => hP.binary e
  | addI32 => exact finish_keeps h hs fun e => hP.binary e
  | addU64 => exact finish_keeps h hs fun e => hP.binary e
  | addI64 => exact finish_keeps h hs fun e => hP.binary e
  | addF => exact finish_keeps h hs fun e => hP.arithF32 hd e
  | addD => exact finish_keeps h hs fun e => hP.arithF64 hd e
  | subU8 => exact finish_keeps h hs fun e => hP.binary e
  | subI8 => exact finish_keeps h hs fun e => hP.binary e
  | subU16 => exact finish_keeps h hs fun e => hP.binary e
  | subI16 => exact finish_keeps h hs fun e => hP.binary e
  | subU32 => exact finish_keeps h hs fun e => hP.binary e
  | subI32 => exact finish_keeps h hs fun e => hP.binary e
  | subU64 => exact finish_keeps h hs fun e => hP.binary e
  | subI64 => exact finish_keeps h hs fun e => hP.binary e
  | subF => exact finish_keeps h hs fun e => hP.arithF32 hd e
  | subD => exact finish_keeps h hs fun e => hP.arithF64 hd e
  | mulU8 => exact finish_keeps h hs fun e => hP.binary e
  | mulI8 => exact finish_keeps h hs fun e => hP.binary e
  | mulU16 => exact finish_keeps h hs fun e => hP.binary e
  | mulI16 => exact finish_keeps h hs fun e => hP.binary e
  | mulU32 => exact finish_keeps h hs fun e => hP.binary e
  | mulI32 => exact finish_keeps h hs fun e => hP.binary e
  | mulU64 => exact finish_keeps h hs fun e => hP.binary e
  | mulI64 => exact finish_keeps h hs fun e => hP.binary e
  | mulF => exact finish_keeps h hs fun e => hP.arithF32 hd e
  | mulD => exact finish_keeps h hs fun e => hP.arithF64 hd e
  | divU8 => exact finish_keeps h hs fun e => hP.divideU e
  | divI8 => exact finish_keeps h hs fun e => hP.divideS e
  | divU16 => exact finish_keeps h hs fun e => hP.divideU e
  | divI16 => exact finish_keeps h hs fun e => hP.divideS e
  | divU32 => exact finish_keeps h hs fun e => hP.divideU e
  | divI32 => exact finish_keeps h hs fun e => hP.divideS e
  | divU64 => exact finish_keeps h hs fun e => hP.divideU e
  | divI64 => exact finish_keeps h hs fun e => hP.divideS e
  | divF => exact finish_keeps h hs fun e => hP.arithF32 hd e
  | divD => exact finish_keeps h hs fun e => hP.arithF64 hd e
  | modU8 => exact finish_keeps h hs fun e => hP.divideU e
  | modI8 => exact finish_keeps h hs fun e => hP.divideS e
  | modU16 => exact finish_keeps h hs fun e => hP.divideU e
  | modI16 => exact finish_keeps h hs fun e => hP.divideS e
  | modU32 => exact finish_keeps h hs fun e => hP.divideU e
  | modI32 => exact finish_keeps h hs fun e => hP.divideS e
  | modU64 => exact finish_keeps h hs fun e => hP.divideU e
  | modI64 => exact finish_keeps h hs fun e => hP.divideS e
  | eqU8 => exact finish_keeps h hs fun e => hP.compare e
  | eqI8 => exact finish_keeps h hs fun e => hP.compare e
  | eqU16 => exact finish_keeps h hs fun e => hP.compare e
  | eqI16 => exact finish_keeps h hs fun e => hP.compare e
  | eqU32 => exact finish_keeps h hs fun e => hP.compare e
  | eqI32 => exact finish_keeps h hs fun e => hP.compare e
  | eqU64 => exact finish_keeps h hs fun e => hP.compare e
  | eqI64 => exact finish_keeps h hs fun e => hP.compare e
  | eqF => exact finish_keeps h hs fun e => hP.compareF32 e
  | eqD => exact finish_keeps h hs fun e => hP.compareF64 e
  | neqU8 => exact finish_keeps h hs fun e => hP.compare e
  | neqI8 => exact finish_keeps h hs fun e => hP.compare e
  | neqU16 => exact finish_keeps h hs fun e => hP.compare e
  | neqI16 => exact finish_keeps h hs fun e => hP.compare e
  | neqU32 => exact finish_keeps h hs fun e => hP.compare e
  | neqI32 => exact finish_keeps h hs fun e => hP.compare e
  | neqU64 => exact finish_keeps h hs fun e => hP.compare e
  | neqI64 => exact finish_keeps h hs fun e => hP.compare e
  | neqF => exact finish_keeps h hs fun e => hP.compareF32 e
  | neqD => exact finish_keeps h hs fun e => hP.compareF64 e
  | ltU8 => exact finish_keeps h hs fun e => hP.compare e
  | ltI8 => exact finish_keeps h hs fun e => hP.compare e
  | ltU16 => exact finish_keeps h hs fun e => hP.compare e
  | ltI16 => exact finish_keeps h hs fun e => hP.compare e
  | ltU32 => exact finish_keeps h hs fun e => hP.compare e
  | ltI32 => exact finish_keeps h hs fun e => hP.compare e
  | ltU64 => exact finish_keeps h hs fun e => hP.compare e
  | ltI64 => exact finish_keeps h hs fun e => hP.compare e
  | ltF => exact finish_keeps h hs fun e => hP.compareF32 e
  | ltD => exact finish_keeps h hs fun e => hP.compareF64 e
  | lteqU8 => exact finish_keeps h hs fun e => hP.compare e
  | lteqI8 => exact finish_keeps h hs fun e => hP.compare e
  | lteqU16 => exact finish_keeps h hs fun e => hP.compare e
  | lteqI16 => exact finish_keeps h hs fun e => hP.compare e
  | lteqU32 => exact finish_keeps h hs fun e => hP.compare e
  | lteqI32 => exact finish_keeps h hs fun e => hP.compare e
  | lteqU64 => exact finish_keeps h hs fun e => hP.compare e
  | lteqI64 => exact finish_keeps h hs fun e => hP.compare e
  | lteqF => exact finish_keeps h hs fun e => hP.compareF32 e
  | lteqD => exact finish_keeps h hs fun e => hP.compareF64 e
  | gtU8 => exact finish_keeps h hs fun e => hP.compare e
  | gtI8 => exact finish_keeps h hs fun e => hP.compare e
  | gtU16 => exact finish_keeps h hs fun e => hP.compare e
  | gtI16 => exact finish_keeps h hs fun e => hP.compare e
  | gtU32 => exact finish_keeps h hs fun e => hP.compare e
  | gtI32 => exact finish_keeps h hs fun e => hP.compare e
  | gtU64 => exact finish_keeps h hs fun e => hP.compare e
  | gtI64 => exact finish_keeps h hs fun e => hP.compare e
  | gtF => exact finish_keeps h hs fun e => hP.compareF32 e
  | gtD => exact finish_keeps h hs fun e => hP.compareF64 e
  | gteqU8 => exact finish_keeps h hs fun e => hP.compare e
  | gteqI8 => exact finish_keeps h hs fun e => hP.compare e
  | gteqU16 => exact finish_keeps h hs fun e => hP.compare e
  | gteqI16 => exact finish_keeps h hs fun e => hP.compare e
  | gteqU32 => exact finish_keeps h hs fun e => hP.compare e
  | gteqI32 => exact finish_keeps h hs fun e => hP.compare e
  | gteqU64 => exact finish_keeps h hs fun e => hP.compare e
  | gteqI64 => exact finish_keeps h hs fun e => hP.compare e
  | gteqF => exact finish_keeps h hs fun e => hP.compareF32 e
  | gteqD => exact finish_keeps h hs fun e => hP.compareF64 e
  | logicalAnd => exact finish_keeps h hs fun e => hP.binary e
  | logicalOr => exact finish_keeps h hs fun e => hP.binary e
  | logicalXor => exact finish_keeps h hs fun e => hP.binary e
  | logicalNot => exact finish_keeps h hs fun e => hP.unary e
  | andU8 => exact finish_keeps h hs fun e => hP.binary e
  | andU16 => exact finish_keeps h hs fun e => hP.binary e
  | andU32 => exact finish_keeps h hs fun e => hP.binary e
  | andU64 => exact finish_keeps h hs fun e => hP.binary e
  | orU8 => exact finish_keeps h hs fun e => hP.binary e
  | orU16 => exact finish_keeps h hs fun e => hP.binary e
  | orU32 => exact finish_keeps h hs fun e => hP.binary e
  | orU64 => exact finish_keeps h hs fun e => hP.binary e
  | xorU8 => exact finish_keeps h hs fun e => hP.binary e
  | xorU16 => exact finish_keeps h hs fun e => hP.binary e
  | xorU32 => exact finish_keeps h hs fun e => hP.binary e
  | xorU64 => exact finish_keeps h hs fun e => hP.binary e
  | notU8 => exact finish_keeps h hs fun e => hP.unary e
  | notU16 => exact finish_keeps h hs fun e => hP.unary e
  | notU32 => exact finish_keeps h hs fun e => hP.unary e
  | notU64 => exact finish_keeps h hs fun e => hP.unary e
  | lshftU8 => exact finish_keeps h hs fun e => hP.shift e
  | lshftU16 => exact finish_keeps h hs fun e => hP.shift e
  | lshftU32 => exact finish_keeps h hs fun e => hP.shift e
  | lshftU64 => exact finish_keeps h hs fun e => hP.shift e
  | rshftU8 => exact finish_keeps h hs fun e => hP.shift e
  | rshftU16 => exact finish_keeps h hs fun e => hP.shift e
  | rshftU32 => exact finish_keeps h hs fun e => hP.shift e
  | rshftU64 => exact finish_keeps h hs fun e => hP.shift e
  | jmpU8 => exact finish_keeps h hs fun e => hP.jump hj1 e
  | jmpU16 => exact finish_keeps h hs fun e => hP.jump hj1 e
  | jmpU32 => exact finish_keeps h hs fun e => hP.jump hj1 e
  | jmpU64 => exact finish_keeps h hs fun e => hP.jump hj1 e
  | jmpifU8 => exact finish_keeps h hs fun e => hP.jumpIf hj1 e
  | jmpifU16 => exact finish_keeps h hs fun e => hP.jumpIf hj1 e
  | jmpifU32 => exact finish_keeps h hs fun e => hP.jumpIf hj1 e
  | jmpifU64 => exact finish_keeps h hs fun e => hP.jumpIf hj1 e
  | pushU8 imm => exact finish_keeps h hs fun e => hP.pushImm hi e
  | pushU16 imm => exact finish_keeps h hs fun e => hP.pushImm hi e
  | pushU32 imm => exact finish_keeps h hs fun e => hP.pushImm hi e
  | pushU64 imm => exact finish_keeps h hs fun e => hP.pushImm hi e
  | popU8 => exact finish_keeps h hs fun e => hP.dropBytes e
  | popU16 => exact finish_keeps h hs fun e => hP.dropBytes e
  | popU32 => exact finish_keeps h hs fun e => hP.dropBytes e
  | popU64 => exact finish_keeps h hs fun e => hP.dropBytes e
  | loadU8 => exact finish_keeps h hs fun e => hP.load e
  | loadU16 => exact finish_keeps h hs fun e => hP.load e
  | loadU32 => exact finish_keeps h hs fun e => hP.load e
  | loadU64 => exact finish_keeps h hs fun e => hP.load e
  | storeU8 => exact finish_keeps h hs fun e => hP.storeByteAt (hw (by simp [isStore])) e
  | storeU16 => exact finish_keeps h hs fun e => hP.storeByteAt (hw (by simp [isStore])) e
  | storeU32 => exact finish_keeps h hs fun e => hP.storeByteAt (hw (by simp [isStore])) e
  | storeU64 => exact finish_keeps h hs fun e => hP.storeByteAt (hw (by simp [isStore])) e
  | callU8 => exact finish_keeps h hs fun e => hP.call (hf (by simp [writesFp])) hj1 e
  | callU16 => exact finish_keeps h hs fun e => hP.call (hf (by simp [writesFp])) hj1 e
  | callU32 => exact finish_keeps h hs fun e => hP.call (hf (by simp [writesFp])) hj1 e
  | callU64 => exact finish_keeps h hs fun e => hP.call (hf (by simp [writesFp])) hj1 e
  | retU8 => exact finish_keeps h hs fun e => hP.ret (hf (by simp [writesFp])) (hj2 (by simp [isReturn])) e
  | retU16 => exact finish_keeps h hs fun e => hP.ret (hf (by simp [writesFp])) (hj2 (by simp [isReturn])) e
  | retU32 => exact finish_keeps h hs fun e => hP.ret (hf (by simp [writesFp])) (hj2 (by simp [isReturn])) e
  | retU64 => exact finish_keeps h hs fun e => hP.ret (hf (by simp [writesFp])) (hj2 (by simp [isReturn])) e
  | argc => exact finish_keeps h hs fun e => hP.argCount e
  | arg => exact finish_keeps h hs fun e => hP.argByte e
  | halt => exact .inr (.inr (.inl ⟨rfl, (Host.Outcome.next.inj h).symm⟩))
  | syscall =>
    rcases finish_next (r := syscall s) h with e | ⟨c, _, e⟩
    · exact .inr (.inr (.inr ⟨rfl, e⟩))
    · exact .inr (.inl ⟨c, e⟩)

end Sys2Proof.Machine
end

