-- ==== Sys2Proof/Laws/Faults.lean ====
section
/-! SUPPORT. Which fault each shared operation raises, and when: the other half of the laws of Laws/Ops.lean. -/

namespace Sys2Proof.Machine

/-- A sequence fails where its first part fails, or where the second does after it. -/
theorem bind_error {α β : Type} {x : Except Cause α} {f : α → Except Cause β} {c : Cause} :
    (x >>= f) = .error c ↔ x = .error c ∨ ∃ a, x = .ok a ∧ f a = .error c := by
  cases x <;> simp [bind, Except.bind]

theorem pushBytes_error {bs : List Byte} {s : State} {c : Cause} (h : pushBytes bs s = .error c) :
    c = .stackOverflow ∧ s.params.stackCap < s.sp.toNat + bs.length := by
  simp only [pushBytes] at h
  split_ifs at h with hc
  exact ⟨(Except.error.inj h).symm, hc⟩

theorem pushN_error {w : Nat} {v : BitVec w} {s : State} {c : Cause} (h : pushN v s = .error c) :
    c = .stackOverflow ∧ s.params.stackCap < s.sp.toNat + w / 8 := by
  simpa using pushBytes_error h

theorem push1_error {b : Byte} {s : State} {c : Cause} (h : push1 b s = .error c) :
    c = .stackOverflow ∧ s.params.stackCap < s.sp.toNat + 1 := by
  simpa using pushBytes_error h

theorem popN_error {w : Nat} {s : State} {c : Cause} (h : popN w s = .error c) :
    c = .stackUnderflow ∧ s.sp.toNat < w / 8 := by
  simp only [popN, popBytes, bind_error] at h
  split_ifs at h with hc <;> simp at h
  exact ⟨h.symm, hc⟩

theorem pop1_error {s : State} {c : Cause} (h : pop1 s = .error c) :
    c = .stackUnderflow ∧ s.sp.toNat < 1 := by
  simpa using popN_error (w := 8) (by rwa [← pop1_eq])

theorem dropBytes_error {n : Nat} {s : State} {c : Cause} (h : dropBytes n s = .error c) :
    c = .stackUnderflow ∧ s.sp.toNat < n := by
  simp only [dropBytes] at h
  split_ifs at h with hc
  exact ⟨(Except.error.inj h).symm, hc⟩

theorem popPair_error {w : Nat} {s : State} {c : Cause} (h : popPair w s = .error c) : c = .stackUnderflow := by
  simp only [popPair, bind_error, Prod.exists] at h
  rcases h with h | ⟨b, s1, _, h | ⟨a, s2, _, h⟩⟩
  · exact (popN_error h).1
  · exact (popN_error h).1
  · simp at h

theorem popTarget_error {w : Nat} {s : State} {c : Cause} (h : popTarget w s = .error c) : c = .stackUnderflow := by
  simp only [popTarget, bind_error, Prod.exists] at h
  rcases h with h | ⟨a, s1, _, h⟩
  · exact (popN_error h).1
  · simp at h

theorem popAddress_error {w : Nat} {s : State} {c : Cause} (h : popAddress w s = .error c) :
    c = .stackUnderflow := by
  simp only [popAddress, bind_error, Prod.exists] at h
  rcases h with h | ⟨a, s1, _, h⟩
  · exact (popN_error h).1
  · simp at h

theorem popArgs_error {n : Nat} {s : State} {c : Cause} (h : popArgs n s = .error c) : c = .stackUnderflow := by
  induction n generalizing s with
  | zero => simp [popArgs] at h
  | succ n ih =>
    simp only [popArgs, bind_error, Prod.exists] at h
    rcases h with h | ⟨a, s1, _, h | ⟨b, s2, _, h⟩⟩
    · exact (popN_error h).1
    · exact ih h
    · simp at h

theorem jumpTo_error {v : Word} {s : State} {c : Cause} (h : jumpTo v s = .error c) :
    c = .invalidJumpTarget ∧ s.codeLen ≤ v.toNat := by
  simp only [jumpTo, bind_error, checkTarget] at h
  split_ifs at h with hc <;> simp at h
  exact ⟨h.symm, hc⟩

theorem frameRead_error {k : Int} {s : State} {c : Cause} (h : frameRead k s = .error c) :
    c = .stackUnderflow ∧ (k < 0 ∨ (s.sp.toNat : Int) ≤ k) := by
  simp only [frameRead] at h
  split_ifs at h with h1 h2
  · exact ⟨(Except.error.inj h).symm, .inl h1⟩
  · exact ⟨(Except.error.inj h).symm, .inr h2⟩

theorem storeRead_error {a : Nat} {s : State} {c : Cause} (h : storeRead a s = .error c) :
    c = .outOfBounds ∧ s.params.storeCap ≤ a := by
  simp only [storeRead] at h
  split_ifs at h with hc
  exact ⟨(Except.error.inj h).symm, hc⟩

theorem storeWrite_error {a : Nat} {b : Byte} {s : State} {c : Cause} (h : storeWrite a b s = .error c) :
    c = .outOfBounds ∧ s.params.storeCap ≤ a := by
  simp only [storeWrite] at h
  split_ifs at h with hc
  exact ⟨(Except.error.inj h).symm, hc⟩

/-- A fetch fails with `CodeOverrun` or `InvalidOpcode` only. -/
theorem fetch_error {s : State} {c : Cause} (h : fetch s = .error c) : c = .codeOverrun ∨ c = .invalidOpcode := by
  simp only [fetch] at h
  split_ifs at h
  · exact .inl (Except.error.inj h).symm
  · split at h <;> simp at h <;> simp [← h]

/-- What a fetch answers: `pc` is one further and nothing else has changed. -/
theorem fetch_ok {s t : State} {i : Instr} (h : fetch s = .ok (i, t)) :
    s.pc.toNat < s.codeLen ∧ t = s.setPc (s.pc + 1) ∧
      ∃ rest, decode s.params.opmap (s.code.drop s.pc.toNat) = .ok (i, rest) := by
  simp only [fetch] at h
  split_ifs at h with hc
  split at h <;> simp at h
  rename_i j rest hd
  obtain ⟨rfl, rfl⟩ := h
  exact ⟨not_le.1 hc, rfl, rest, hd⟩

/-! ### The shapes of instruction

With `sp` within the capacity, what a shape pushes fits in what it popped. -/

theorem popN_sp {w : Nat} {s t : State} {v : BitVec w} (h : popN w s = .ok (v, t)) :
    t.sp.toNat + w / 8 = s.sp.toNat ∧ t.params = s.params := by
  obtain ⟨h1, _, rfl⟩ := popN_ok h
  exact ⟨by simp only [State.setSp_sp, toNat_sub_le h1]; omega, rfl⟩

theorem pop1_sp {s t : State} {b : Byte} (h : pop1 s = .ok (b, t)) :
    t.sp.toNat + 1 = s.sp.toNat ∧ t.params = s.params :=
  popN_sp (w := 8) (by rwa [← pop1_eq])

theorem popPair_sp {w : Nat} {s t : State} {v : BitVec w × BitVec w} (h : popPair w s = .ok (v, t)) :
    t.sp.toNat + 2 * (w / 8) = s.sp.toNat ∧ t.params = s.params := by
  simp only [popPair, bind_ok, Prod.exists] at h
  obtain ⟨b, s1, h1, a, s2, h2, h3⟩ := h
  obtain ⟨_, rfl⟩ := Prod.mk.inj (Except.ok.inj h3)
  obtain ⟨a1, a2⟩ := popN_sp h1
  obtain ⟨b1, b2⟩ := popN_sp h2
  exact ⟨by omega, b2.trans a2⟩

theorem applyFnum_sp {w : Nat} (fmt : FloatFormat) (op : FloatOp) (a b : BitVec w) (s : State) :
    (applyFnum fmt op a b s).2.sp = s.sp ∧ (applyFnum fmt op a b s).2.params = s.params := by
  simp only [applyFnum]
  split_ifs <;> exact ⟨rfl, rfl⟩

/-- A push of no more than came off cannot overflow. -/
theorem pushN_fits {w n : Nat} {v : BitVec w} {s u : State} {c : Cause} (hu : u.sp.toNat + n = s.sp.toNat)
    (hp : u.params = s.params) (hw : w / 8 ≤ n) (hs : s.sp.toNat ≤ s.params.stackCap) :
    pushN v u ≠ .error c := fun h => by
  have h1 := (pushN_error h).2
  rw [hp] at h1
  omega

theorem binary_error {w r : Nat} {f : BitVec w → BitVec w → BitVec r} {s : State} {c : Cause}
    (hr : r / 8 ≤ 2 * (w / 8)) (hs : s.sp.toNat ≤ s.params.stackCap) (h : binary w f s = .error c) :
    c = .stackUnderflow := by
  simp only [binary, bind_error, Prod.exists] at h
  rcases h with h | ⟨a, b, s1, h1, h⟩
  · exact popPair_error h
  · exact absurd h (pushN_fits (popPair_sp h1).1 (popPair_sp h1).2 hr hs)

theorem unary_error {w r : Nat} {f : BitVec w → BitVec r} {s : State} {c : Cause}
    (hr : r / 8 ≤ w / 8) (hs : s.sp.toNat ≤ s.params.stackCap) (h : unary w f s = .error c) :
    c = .stackUnderflow := by
  simp only [unary, bind_error, Prod.exists] at h
  rcases h with h | ⟨a, s1, h1, h⟩
  · exact (popN_error h).1
  · exact absurd h (pushN_fits (popN_sp h1).1 (popN_sp h1).2 hr hs)

theorem shift_error {w : Nat} {f : BitVec w → Byte → BitVec w} {s : State} {c : Cause}
    (hs : s.sp.toNat ≤ s.params.stackCap) (h : shift w f s = .error c) : c = .stackUnderflow := by
  simp only [shift, bind_error, Prod.exists] at h
  rcases h with h | ⟨n, s1, h1, h | ⟨v, s2, h2, h⟩⟩
  · exact (pop1_error h).1
  · exact (popN_error h).1
  · have a := pop1_sp h1
    have b := popN_sp h2
    exact absurd h (pushN_fits (n := w / 8 + 1) (by omega) (b.2.trans a.2) (by omega) hs)

theorem divideU_error {w : Nat} {f : BitVec w → BitVec w → BitVec w} {s : State} {c : Cause}
    (hs : s.sp.toNat ≤ s.params.stackCap) (h : divideU w f s = .error c) :
    c = .stackUnderflow ∨ c = .divisionByZero := by
  simp only [divideU, bind_error, Prod.exists] at h
  rcases h with h | ⟨a, b, s1, h1, h⟩
  · exact .inl (popPair_error h)
  · split_ifs at h
    · exact .inr (Except.error.inj h).symm
    · exact absurd h (pushN_fits (popPair_sp h1).1 (popPair_sp h1).2 (by omega) hs)

theorem divideS_error {w : Nat} {f : BitVec w → BitVec w → BitVec w} {s : State} {c : Cause}
    (hs : s.sp.toNat ≤ s.params.stackCap) (h : divideS w f s = .error c) :
    c = .stackUnderflow ∨ c = .divisionByZero := by
  simp only [divideS, bind_error, Prod.exists] at h
  rcases h with h | ⟨a, b, s1, h1, h⟩
  · exact .inl (popPair_error h)
  · split_ifs at h
    · exact .inr (Except.error.inj h).symm
    · exact .inr (Except.error.inj h).symm
    · exact absurd h (pushN_fits (popPair_sp h1).1 (popPair_sp h1).2 (by omega) hs)

theorem compare_error {w : Nat} {rel : BitVec w → BitVec w → Bool} {s : State} {c : Cause}
    (hw : 8 ≤ w) (hs : s.sp.toNat ≤ s.params.stackCap) (h : compare w rel s = .error c) : c = .stackUnderflow :=
  binary_error (by omega) hs h

theorem arithF32_error {op : FloatOp} {s : State} {c : Cause}
    (hs : s.sp.toNat ≤ s.params.stackCap) (h : arithF32 op s = .error c) : c = .stackUnderflow := by
  simp only [arithF32, bind_error, Prod.exists, popPairF32_eq] at h
  rcases h with h | ⟨a, b, s1, h1, h⟩
  · exact popPair_error h
  · have e := applyFnum_sp binary32 op a b s1
    exact absurd h (pushN_fits (w := 32) (n := 8) (by rw [e.1]; exact (popPair_sp h1).1)
      (e.2.trans (popPair_sp h1).2) (by omega) hs)

theorem arithF64_error {op : FloatOp} {s : State} {c : Cause}
    (hs : s.sp.toNat ≤ s.params.stackCap) (h : arithF64 op s = .error c) : c = .stackUnderflow := by
  simp only [arithF64, bind_error, Prod.exists, popPairF64_eq] at h
  rcases h with h | ⟨a, b, s1, h1, h⟩
  · exact popPair_error h
  · have e := applyFnum_sp binary64 op a b s1
    exact absurd h (pushN_fits (w := 64) (n := 16) (by rw [e.1]; exact (popPair_sp h1).1)
      (e.2.trans (popPair_sp h1).2) (by omega) hs)

theorem jump_error {w : Nat} {s : State} {c : Cause} (h : jump w s = .error c) :
    c = .stackUnderflow ∨ c = .invalidJumpTarget := by
  simp only [jump, bind_error, Prod.exists] at h
  rcases h with h | ⟨v, s1, _, h⟩
  · exact .inl (popTarget_error h)
  · exact .inr (jumpTo_error h).1

theorem jumpIf_error {w : Nat} {s : State} {c : Cause} (h : jumpIf w s = .error c) :
    c = .stackUnderflow ∨ c = .invalidJumpTarget := by
  simp only [jumpIf, bind_error, Prod.exists] at h
  rcases h with h | ⟨v, s1, _, h | ⟨b, s2, _, h⟩⟩
  · exact .inl (popTarget_error h)
  · exact .inl (pop1_error h).1
  · split_ifs at h
    exact .inr (jumpTo_error h).1

theorem call_error {w : Nat} {s : State} {c : Cause} (h : call w s = .error c) :
    c = .stackUnderflow ∨ c = .stackOverflow ∨ c = .invalidJumpTarget := by
  simp only [call, bind_error, Prod.exists] at h
  rcases h with h | ⟨v, s1, _, h | ⟨s2, _, h | ⟨s3, _, h⟩⟩⟩
  · exact .inl (popTarget_error h)
  · exact .inr (.inl (pushN_error h).1)
  · exact .inr (.inl (pushN_error h).1)
  · exact .inr (.inr (jumpTo_error h).1)

theorem ret_error {w : Nat} {s : State} {c : Cause} (hw : w ≤ 64) (hs : s.sp.toNat ≤ s.params.stackCap)
    (h : ret w s = .error c) : c = .stackUnderflow := by
  simp only [ret, bind_error, Prod.exists] at h
  rcases h with h | ⟨v, s1, h1, h⟩
  · exact (popN_error h).1
  split_ifs at h with hc
  · exact (Except.error.inj h).symm
  simp only [bind_error, Prod.exists] at h
  rcases h with h | ⟨a, s2, h2, h | ⟨b, s3, h3, h | ⟨n, s4, h4, h | ⟨s5, h5, h | ⟨s6, _, h⟩⟩⟩⟩⟩
  · exact (popN_error h).1
  · exact (popN_error h).1
  · exact (pop1_error h).1
  · exact (dropBytes_error h).1
  · have e1 := popN_sp h1
    have e2 := popN_sp h2
    have e3 := popN_sp h3
    have e4 := pop1_sp h4
    obtain ⟨e5, rfl⟩ := dropBytes_ok h5
    have e6 := toNat_sub_le e5
    have e7 : s4.params = s.params := e4.2.trans (e3.2.trans (e2.2.trans e1.2))
    simp only [State.setSp_sp] at e2
    have e8 := (pushN_error h).2
    simp only [State.setSp_sp, State.setSp_params] at e8
    rw [e7, e6] at e8
    have : w / 8 ≤ 8 := by omega
    omega
  · simp at h

theorem argCount_error {s : State} {c : Cause} (h : argCount s = .error c) :
    c = .stackUnderflow ∨ c = .stackOverflow := by
  simp only [argCount, bind_error] at h
  rcases h with h | ⟨b, _, h⟩
  · exact .inl (frameRead_error h).1
  · exact .inr (push1_error h).1

theorem argByte_error {s : State} {c : Cause} (hs : s.sp.toNat ≤ s.params.stackCap) (h : argByte s = .error c) :
    c = .stackUnderflow := by
  simp only [argByte, bind_error, Prod.exists] at h
  rcases h with h | ⟨i, s1, h1, h | ⟨b, _, h⟩⟩
  · exact (pop1_error h).1
  · exact (frameRead_error h).1
  · rw [push1_eq] at h
    exact absurd h (pushN_fits (pop1_sp h1).1 (pop1_sp h1).2 (by omega) hs)

theorem pushImm_error {w : Nat} {imm : BitVec w} {s : State} {c : Cause} (h : pushImm imm s = .error c) :
    c = .codeOverrun ∨ c = .stackOverflow := by
  simp only [pushImm] at h
  split_ifs at h
  · exact .inl (Except.error.inj h).symm
  · exact .inr (pushN_error h).1

theorem load_error {w : Nat} {s : State} {c : Cause} (hw : 8 ≤ w) (hs : s.sp.toNat ≤ s.params.stackCap)
    (h : load w s = .error c) : c = .stackUnderflow ∨ c = .outOfBounds := by
  simp only [load, popAddress, bind_error, bind_ok, Prod.exists] at h
  rcases h with (h | ⟨v, s1, _, h⟩) | ⟨a, s1, ⟨v, s2, h1, h2⟩, h | ⟨b, _, h⟩⟩
  · exact .inl (popN_error h).1
  · simp at h
  · exact .inr (storeRead_error h).1
  · obtain ⟨_, rfl⟩ := Prod.mk.inj (Except.ok.inj h2)
    rw [push1_eq] at h
    exact absurd h (pushN_fits (popN_sp h1).1 (popN_sp h1).2 (by omega) hs)

theorem storeByteAt_error {w : Nat} {s : State} {c : Cause} (h : storeByteAt w s = .error c) :
    c = .stackUnderflow ∨ c = .outOfBounds := by
  simp only [storeByteAt, bind_error, Prod.exists] at h
  rcases h with h | ⟨a, s1, _, h | ⟨b, s2, _, h⟩⟩
  · exact .inl (popAddress_error h)
  · exact .inl (pop1_error h).1
  · exact .inr (storeWrite_error h).1

theorem syscall_error {s : State} {c : Cause} (hs : s.sp.toNat ≤ s.params.stackCap) (h : syscall s = .error c) :
    c = .stackUnderflow ∨ c = .invalidSyscallArity := by
  have hP : StackClosed fun u => u.params = s.params :=
    ⟨fun _ _ _ hu => hu, fun bs u v hv hu => by rw [(pushBytes_ok hv).2]; exact hu⟩
  simp only [syscall, bind_error, Prod.exists] at h
  rcases h with h | ⟨n, s1, h1, h⟩
  · exact .inl (pop1_error h).1
  split_ifs at h
  · exact .inr (Except.error.inj h).symm
  simp only [bind_error, Prod.exists] at h
  rcases h with h | ⟨args, s2, h2, h | ⟨num, s3, h3, h⟩⟩
  · exact .inl (popArgs_error h)
  · exact .inl (popN_error h).1
  · obtain ⟨a1, _, a3⟩ := hP.popArgs _ h2 (pop1_sp h1).2
    have a4 := popN_sp h3
    have a5 := pop1_sp h1
    rw [takeAnswer] at h
    split at h
    · simp at h
    · exact absurd h (pushN_fits (s := s) (n := 8 * n.toNat + 9) (by simp; omega) (a4.2.trans a1) (by omega) hs)

end Sys2Proof.Machine
end

