-- ==== Sys2Proof/Laws/Float.lean ====
section
/-! SUPPORT. What `FNUM` gives (spec 40_primitives.md R118): the IEEE 754 result where there is one, else a NaN of the
parameter's choice; and what applying it does to the state. -/

namespace Sys2Proof.Machine

/-- Where IEEE 754 fixes the result, `FNUM` gives it, whatever the draw. -/
theorem fnum_of_some {w : Nat} {fmt : FloatFormat} {op : FloatOp} {a b r : BitVec w}
    (h : ieeeResult fmt op a b = some r) (draw : Nat) : fnum fmt op draw a b = r := by
  simp [fnum, h]

/-- Where IEEE 754 gives a NaN, `FNUM` gives one made of the parameter's pattern. -/
theorem fnum_of_none {w : Nat} {fmt : FloatFormat} {op : FloatOp} {a b : BitVec w}
    (h : ieeeResult fmt op a b = none) (draw : Nat) :
    fnum fmt op draw a b = BitVec.ofNat w (asNan fmt (Config.fnum op w draw a b).toNat) := by
  simp [fnum, h]

/-- Applying `FNUM` where IEEE 754 fixes the result draws nothing. -/
theorem applyFnum_of_some {w : Nat} {fmt : FloatFormat} {op : FloatOp} {a b r : BitVec w}
    (h : ieeeResult fmt op a b = some r) (s : State) : applyFnum fmt op a b s = (r, s) := by
  simp [applyFnum, fnum, h]

/-- Applying `FNUM` where the result is a NaN draws one and counts the draw. -/
theorem applyFnum_of_none {w : Nat} {fmt : FloatFormat} {op : FloatOp} {a b : BitVec w}
    (h : ieeeResult fmt op a b = none) (s : State) :
    applyFnum fmt op a b s = (BitVec.ofNat w (asNan fmt (Config.fnum op w s.draws a b).toNat), s.countDraw) := by
  simp [applyFnum, fnum, h]

/-- A pattern of the format is its sign bit, its exponent field and its fraction field. -/
theorem pattern_eq {e f x : Nat} (hx : x < 2 ^ (1 + e + f)) :
    x = x / 2 ^ (e + f) % 2 * 2 ^ (e + f) + x / 2 ^ f % 2 ^ e * 2 ^ f + x % 2 ^ f := by
  have h1 : x / 2 ^ (e + f) < 2 := by
    rw [Nat.div_lt_iff_lt_mul (by positivity), ← pow_succ']
    convert hx using 2
    omega
  have h2 : x / 2 ^ f / 2 ^ e = x / 2 ^ (e + f) := by rw [Nat.div_div_eq_div_mul, ← pow_add, add_comm e f]
  have h3 := Nat.div_add_mod x (2 ^ f)
  have h4 := Nat.div_add_mod (x / 2 ^ f) (2 ^ e)
  rw [h2] at h4
  rw [Nat.mod_eq_of_lt h1]
  calc x = 2 ^ f * (2 ^ e * (x / 2 ^ (e + f)) + x / 2 ^ f % 2 ^ e) + x % 2 ^ f := by rw [h4, h3]
    _ = _ := by rw [pow_add]; ring

/-- A NaN is the NaN made of it: the parameter's NaN is the result as it stands. -/
theorem asNan_of_nan {fmt : FloatFormat} {x : Nat} (hx : x < 2 ^ (1 + fmt.expBits + fmt.fracBits))
    (he : x / 2 ^ fmt.fracBits % 2 ^ fmt.expBits = 2 ^ fmt.expBits - 1) (hf : x % 2 ^ fmt.fracBits ≠ 0) :
    asNan fmt x = x := by
  have hp := pattern_eq hx
  rw [he] at hp
  have hm : max 1 (x % 2 ^ fmt.fracBits) = x % 2 ^ fmt.fracBits := max_eq_right (Nat.one_le_iff_ne_zero.2 hf)
  simp only [asNan, withSign, FloatFormat.infMag, hm]
  have h2 := Nat.mod_two_eq_zero_or_one (x / fmt.signBit)
  unfold FloatFormat.signBit at *
  rcases h2 with h2 | h2 <;> simp only [h2] at hp ⊢ <;> simp only [zero_ne_one, decide_false, decide_true,
    Bool.false_eq_true, if_false, if_true] <;> omega

/-- What `asNan` makes is a NaN of the format, of whatever pattern: exponent all ones, fraction nonzero. -/
theorem asNan_fields (fmt : FloatFormat) (x : Nat) (h1 : 1 ≤ fmt.fracBits) :
    asNan fmt x < 2 ^ (1 + fmt.expBits + fmt.fracBits) ∧
    asNan fmt x / 2 ^ fmt.fracBits % 2 ^ fmt.expBits = 2 ^ fmt.expBits - 1 ∧ asNan fmt x % 2 ^ fmt.fracBits ≠ 0 := by
  have hF : 1 < 2 ^ fmt.fracBits := Nat.one_lt_two_pow (by omega)
  have hE : 0 < 2 ^ fmt.expBits := by positivity
  have hr := Nat.mod_lt x (by omega : 2 ^ fmt.fracBits > 0)
  obtain ⟨r, hr0, hr1, hr2⟩ : ∃ r, max 1 (x % 2 ^ fmt.fracBits) = r ∧ r ≠ 0 ∧ r < 2 ^ fmt.fracBits :=
    ⟨_, rfl, by omega, by omega⟩
  obtain ⟨b, hb, hs⟩ : ∃ b, b < 2 ∧
      asNan fmt x = r + 2 ^ fmt.fracBits * ((2 ^ fmt.expBits - 1) + 2 ^ fmt.expBits * b) := by
    simp only [asNan, withSign, FloatFormat.infMag, FloatFormat.signBit, hr0]
    split_ifs
    · exact ⟨1, by omega, by rw [pow_add]; ring⟩
    · exact ⟨0, by omega, by ring⟩
  have hq : (2 ^ fmt.expBits - 1) + 2 ^ fmt.expBits * b < 2 * 2 ^ fmt.expBits := by
    have : 2 ^ fmt.expBits * b ≤ 2 ^ fmt.expBits * 1 := Nat.mul_le_mul_left _ (by omega)
    omega
  rw [hs, Nat.add_mul_div_left _ _ (by omega), Nat.div_eq_of_lt hr2, zero_add, Nat.add_mul_mod_self_left,
    Nat.add_mul_mod_self_left, Nat.mod_eq_of_lt hr2, Nat.mod_eq_of_lt (by omega)]
  refine ⟨?_, rfl, hr1⟩
  calc _ < 2 ^ fmt.fracBits * ((2 ^ fmt.expBits - 1) + 2 ^ fmt.expBits * b + 1) := by rw [mul_add _ _ 1]; omega
    _ ≤ 2 ^ fmt.fracBits * (2 * 2 ^ fmt.expBits) := Nat.mul_le_mul_left _ hq
    _ = _ := by rw [pow_add, pow_add]; ring

end Sys2Proof.Machine
end

