-- ==== Sys2Proof/Laws/PerInstr.lean ====
section
/-! SUPPORT. Encoding, instruction by instruction: the row of the opcode table that `rowOf` names exists, and reading that
row from the bytes of the instruction's immediate gives the instruction back and leaves what follows it
(spec 30_encoding.md R81 to R84). -/

namespace Sys2Proof.Laws.Encoding

/-- The row of an instruction in the table reads the instruction back from its immediate bytes, whatever follows. -/
def Statement (i : Instr) : Prop :=
  ∃ row, rows[rowOf i]? = some row ∧ ∀ rest : List Byte, readRow row (immBytes i ++ rest) = .ok (i, rest)

/-- The reader of an immediate gives back the value whose bytes it is given. -/
theorem readImm_bytesOf {w : Nat} (h : 8 ∣ w) (make : BitVec w → Instr) (v : BitVec w) (rest : List Byte) :
    readImm w make (Machine.bytesOf v ++ rest) = .ok (make v, rest) := by
  have hl : (Machine.bytesOf v).length = w / 8 := by simp [Machine.bytesOf]
  simp [readImm, List.take_left' hl, List.drop_left' hl, Machine.ofBytes_bytesOf h, hl]

theorem addU8 : Statement .addU8 := ⟨.plain .addU8, rfl, fun _ => rfl⟩

theorem addI8 : Statement .addI8 := ⟨.plain .addI8, rfl, fun _ => rfl⟩

theorem addU16 : Statement .addU16 := ⟨.plain .addU16, rfl, fun _ => rfl⟩

theorem addI16 : Statement .addI16 := ⟨.plain .addI16, rfl, fun _ => rfl⟩

theorem addU32 : Statement .addU32 := ⟨.plain .addU32, rfl, fun _ => rfl⟩

theorem addI32 : Statement .addI32 := ⟨.plain .addI32, rfl, fun _ => rfl⟩

theorem addU64 : Statement .addU64 := ⟨.plain .addU64, rfl, fun _ => rfl⟩

theorem addI64 : Statement .addI64 := ⟨.plain .addI64, rfl, fun _ => rfl⟩

theorem addF : Statement .addF := ⟨.plain .addF, rfl, fun _ => rfl⟩

theorem addD : Statement .addD := ⟨.plain .addD, rfl, fun _ => rfl⟩

theorem subU8 : Statement .subU8 := ⟨.plain .subU8, rfl, fun _ => rfl⟩

theorem subI8 : Statement .subI8 := ⟨.plain .subI8, rfl, fun _ => rfl⟩

theorem subU16 : Statement .subU16 := ⟨.plain .subU16, rfl, fun _ => rfl⟩

theorem subI16 : Statement .subI16 := ⟨.plain .subI16, rfl, fun _ => rfl⟩

theorem subU32 : Statement .subU32 := ⟨.plain .subU32, rfl, fun _ => rfl⟩

theorem subI32 : Statement .subI32 := ⟨.plain .subI32, rfl, fun _ => rfl⟩

theorem subU64 : Statement .subU64 := ⟨.plain .subU64, rfl, fun _ => rfl⟩

theorem subI64 : Statement .subI64 := ⟨.plain .subI64, rfl, fun _ => rfl⟩

theorem subF : Statement .subF := ⟨.plain .subF, rfl, fun _ => rfl⟩

theorem subD : Statement .subD := ⟨.plain .subD, rfl, fun _ => rfl⟩

theorem mulU8 : Statement .mulU8 := ⟨.plain .mulU8, rfl, fun _ => rfl⟩

theorem mulI8 : Statement .mulI8 := ⟨.plain .mulI8, rfl, fun _ => rfl⟩

theorem mulU16 : Statement .mulU16 := ⟨.plain .mulU16, rfl, fun _ => rfl⟩

theorem mulI16 : Statement .mulI16 := ⟨.plain .mulI16, rfl, fun _ => rfl⟩

theorem mulU32 : Statement .mulU32 := ⟨.plain .mulU32, rfl, fun _ => rfl⟩

theorem mulI32 : Statement .mulI32 := ⟨.plain .mulI32, rfl, fun _ => rfl⟩

theorem mulU64 : Statement .mulU64 := ⟨.plain .mulU64, rfl, fun _ => rfl⟩

theorem mulI64 : Statement .mulI64 := ⟨.plain .mulI64, rfl, fun _ => rfl⟩

theorem mulF : Statement .mulF := ⟨.plain .mulF, rfl, fun _ => rfl⟩

theorem mulD : Statement .mulD := ⟨.plain .mulD, rfl, fun _ => rfl⟩

theorem divU8 : Statement .divU8 := ⟨.plain .divU8, rfl, fun _ => rfl⟩

theorem divI8 : Statement .divI8 := ⟨.plain .divI8, rfl, fun _ => rfl⟩

theorem divU16 : Statement .divU16 := ⟨.plain .divU16, rfl, fun _ => rfl⟩

theorem divI16 : Statement .divI16 := ⟨.plain .divI16, rfl, fun _ => rfl⟩

theorem divU32 : Statement .divU32 := ⟨.plain .divU32, rfl, fun _ => rfl⟩

theorem divI32 : Statement .divI32 := ⟨.plain .divI32, rfl, fun _ => rfl⟩

theorem divU64 : Statement .divU64 := ⟨.plain .divU64, rfl, fun _ => rfl⟩

theorem divI64 : Statement .divI64 := ⟨.plain .divI64, rfl, fun _ => rfl⟩

theorem divF : Statement .divF := ⟨.plain .divF, rfl, fun _ => rfl⟩

theorem divD : Statement .divD := ⟨.plain .divD, rfl, fun _ => rfl⟩

theorem modU8 : Statement .modU8 := ⟨.plain .modU8, rfl, fun _ => rfl⟩

theorem modI8 : Statement .modI8 := ⟨.plain .modI8, rfl, fun _ => rfl⟩

theorem modU16 : Statement .modU16 := ⟨.plain .modU16, rfl, fun _ => rfl⟩

theorem modI16 : Statement .modI16 := ⟨.plain .modI16, rfl, fun _ => rfl⟩

theorem modU32 : Statement .modU32 := ⟨.plain .modU32, rfl, fun _ => rfl⟩

theorem modI32 : Statement .modI32 := ⟨.plain .modI32, rfl, fun _ => rfl⟩

theorem modU64 : Statement .modU64 := ⟨.plain .modU64, rfl, fun _ => rfl⟩

theorem modI64 : Statement .modI64 := ⟨.plain .modI64, rfl, fun _ => rfl⟩

theorem eqU8 : Statement .eqU8 := ⟨.plain .eqU8, rfl, fun _ => rfl⟩

theorem eqI8 : Statement .eqI8 := ⟨.plain .eqI8, rfl, fun _ => rfl⟩

theorem eqU16 : Statement .eqU16 := ⟨.plain .eqU16, rfl, fun _ => rfl⟩

theorem eqI16 : Statement .eqI16 := ⟨.plain .eqI16, rfl, fun _ => rfl⟩

theorem eqU32 : Statement .eqU32 := ⟨.plain .eqU32, rfl, fun _ => rfl⟩

theorem eqI32 : Statement .eqI32 := ⟨.plain .eqI32, rfl, fun _ => rfl⟩

theorem eqU64 : Statement .eqU64 := ⟨.plain .eqU64, rfl, fun _ => rfl⟩

theorem eqI64 : Statement .eqI64 := ⟨.plain .eqI64, rfl, fun _ => rfl⟩

theorem eqF : Statement .eqF := ⟨.plain .eqF, rfl, fun _ => rfl⟩

theorem eqD : Statement .eqD := ⟨.plain .eqD, rfl, fun _ => rfl⟩

theorem neqU8 : Statement .neqU8 := ⟨.plain .neqU8, rfl, fun _ => rfl⟩

theorem neqI8 : Statement .neqI8 := ⟨.plain .neqI8, rfl, fun _ => rfl⟩

theorem neqU16 : Statement .neqU16 := ⟨.plain .neqU16, rfl, fun _ => rfl⟩

theorem neqI16 : Statement .neqI16 := ⟨.plain .neqI16, rfl, fun _ => rfl⟩

theorem neqU32 : Statement .neqU32 := ⟨.plain .neqU32, rfl, fun _ => rfl⟩

theorem neqI32 : Statement .neqI32 := ⟨.plain .neqI32, rfl, fun _ => rfl⟩

theorem neqU64 : Statement .neqU64 := ⟨.plain .neqU64, rfl, fun _ => rfl⟩

theorem neqI64 : Statement .neqI64 := ⟨.plain .neqI64, rfl, fun _ => rfl⟩

theorem neqF : Statement .neqF := ⟨.plain .neqF, rfl, fun _ => rfl⟩

theorem neqD : Statement .neqD := ⟨.plain .neqD, rfl, fun _ => rfl⟩

theorem ltU8 : Statement .ltU8 := ⟨.plain .ltU8, rfl, fun _ => rfl⟩

theorem ltI8 : Statement .ltI8 := ⟨.plain .ltI8, rfl, fun _ => rfl⟩

theorem ltU16 : Statement .ltU16 := ⟨.plain .ltU16, rfl, fun _ => rfl⟩

theorem ltI16 : Statement .ltI16 := ⟨.plain .ltI16, rfl, fun _ => rfl⟩

theorem ltU32 : Statement .ltU32 := ⟨.plain .ltU32, rfl, fun _ => rfl⟩

theorem ltI32 : Statement .ltI32 := ⟨.plain .ltI32, rfl, fun _ => rfl⟩

theorem ltU64 : Statement .ltU64 := ⟨.plain .ltU64, rfl, fun _ => rfl⟩

theorem ltI64 : Statement .ltI64 := ⟨.plain .ltI64, rfl, fun _ => rfl⟩

theorem ltF : Statement .ltF := ⟨.plain .ltF, rfl, fun _ => rfl⟩

theorem ltD : Statement .ltD := ⟨.plain .ltD, rfl, fun _ => rfl⟩

theorem lteqU8 : Statement .lteqU8 := ⟨.plain .lteqU8, rfl, fun _ => rfl⟩

theorem lteqI8 : Statement .lteqI8 := ⟨.plain .lteqI8, rfl, fun _ => rfl⟩

theorem lteqU16 : Statement .lteqU16 := ⟨.plain .lteqU16, rfl, fun _ => rfl⟩

theorem lteqI16 : Statement .lteqI16 := ⟨.plain .lteqI16, rfl, fun _ => rfl⟩

theorem lteqU32 : Statement .lteqU32 := ⟨.plain .lteqU32, rfl, fun _ => rfl⟩

theorem lteqI32 : Statement .lteqI32 := ⟨.plain .lteqI32, rfl, fun _ => rfl⟩

theorem lteqU64 : Statement .lteqU64 := ⟨.plain .lteqU64, rfl, fun _ => rfl⟩

theorem lteqI64 : Statement .lteqI64 := ⟨.plain .lteqI64, rfl, fun _ => rfl⟩

theorem lteqF : Statement .lteqF := ⟨.plain .lteqF, rfl, fun _ => rfl⟩

theorem lteqD : Statement .lteqD := ⟨.plain .lteqD, rfl, fun _ => rfl⟩

theorem gtU8 : Statement .gtU8 := ⟨.plain .gtU8, rfl, fun _ => rfl⟩

theorem gtI8 : Statement .gtI8 := ⟨.plain .gtI8, rfl, fun _ => rfl⟩

theorem gtU16 : Statement .gtU16 := ⟨.plain .gtU16, rfl, fun _ => rfl⟩

theorem gtI16 : Statement .gtI16 := ⟨.plain .gtI16, rfl, fun _ => rfl⟩

theorem gtU32 : Statement .gtU32 := ⟨.plain .gtU32, rfl, fun _ => rfl⟩

theorem gtI32 : Statement .gtI32 := ⟨.plain .gtI32, rfl, fun _ => rfl⟩

theorem gtU64 : Statement .gtU64 := ⟨.plain .gtU64, rfl, fun _ => rfl⟩

theorem gtI64 : Statement .gtI64 := ⟨.plain .gtI64, rfl, fun _ => rfl⟩

theorem gtF : Statement .gtF := ⟨.plain .gtF, rfl, fun _ => rfl⟩

theorem gtD : Statement .gtD := ⟨.plain .gtD, rfl, fun _ => rfl⟩

theorem gteqU8 : Statement .gteqU8 := ⟨.plain .gteqU8, rfl, fun _ => rfl⟩

theorem gteqI8 : Statement .gteqI8 := ⟨.plain .gteqI8, rfl, fun _ => rfl⟩

theorem gteqU16 : Statement .gteqU16 := ⟨.plain .gteqU16, rfl, fun _ => rfl⟩

theorem gteqI16 : Statement .gteqI16 := ⟨.plain .gteqI16, rfl, fun _ => rfl⟩

theorem gteqU32 : Statement .gteqU32 := ⟨.plain .gteqU32, rfl, fun _ => rfl⟩

theorem gteqI32 : Statement .gteqI32 := ⟨.plain .gteqI32, rfl, fun _ => rfl⟩

theorem gteqU64 : Statement .gteqU64 := ⟨.plain .gteqU64, rfl, fun _ => rfl⟩

theorem gteqI64 : Statement .gteqI64 := ⟨.plain .gteqI64, rfl, fun _ => rfl⟩

theorem gteqF : Statement .gteqF := ⟨.plain .gteqF, rfl, fun _ => rfl⟩

theorem gteqD : Statement .gteqD := ⟨.plain .gteqD, rfl, fun _ => rfl⟩

theorem logicalAnd : Statement .logicalAnd := ⟨.plain .logicalAnd, rfl, fun _ => rfl⟩

theorem logicalOr : Statement .logicalOr := ⟨.plain .logicalOr, rfl, fun _ => rfl⟩

theorem logicalXor : Statement .logicalXor := ⟨.plain .logicalXor, rfl, fun _ => rfl⟩

theorem logicalNot : Statement .logicalNot := ⟨.plain .logicalNot, rfl, fun _ => rfl⟩

theorem andU8 : Statement .andU8 := ⟨.plain .andU8, rfl, fun _ => rfl⟩

theorem andU16 : Statement .andU16 := ⟨.plain .andU16, rfl, fun _ => rfl⟩

theorem andU32 : Statement .andU32 := ⟨.plain .andU32, rfl, fun _ => rfl⟩

theorem andU64 : Statement .andU64 := ⟨.plain .andU64, rfl, fun _ => rfl⟩

theorem orU8 : Statement .orU8 := ⟨.plain .orU8, rfl, fun _ => rfl⟩

theorem orU16 : Statement .orU16 := ⟨.plain .orU16, rfl, fun _ => rfl⟩

theorem orU32 : Statement .orU32 := ⟨.plain .orU32, rfl, fun _ => rfl⟩

theorem orU64 : Statement .orU64 := ⟨.plain .orU64, rfl, fun _ => rfl⟩

theorem xorU8 : Statement .xorU8 := ⟨.plain .xorU8, rfl, fun _ => rfl⟩

theorem xorU16 : Statement .xorU16 := ⟨.plain .xorU16, rfl, fun _ => rfl⟩

theorem xorU32 : Statement .xorU32 := ⟨.plain .xorU32, rfl, fun _ => rfl⟩

theorem xorU64 : Statement .xorU64 := ⟨.plain .xorU64, rfl, fun _ => rfl⟩

theorem notU8 : Statement .notU8 := ⟨.plain .notU8, rfl, fun _ => rfl⟩

theorem notU16 : Statement .notU16 := ⟨.plain .notU16, rfl, fun _ => rfl⟩

theorem notU32 : Statement .notU32 := ⟨.plain .notU32, rfl, fun _ => rfl⟩

theorem notU64 : Statement .notU64 := ⟨.plain .notU64, rfl, fun _ => rfl⟩

theorem lshftU8 : Statement .lshftU8 := ⟨.plain .lshftU8, rfl, fun _ => rfl⟩

theorem lshftU16 : Statement .lshftU16 := ⟨.plain .lshftU16, rfl, fun _ => rfl⟩

theorem lshftU32 : Statement .lshftU32 := ⟨.plain .lshftU32, rfl, fun _ => rfl⟩

theorem lshftU64 : Statement .lshftU64 := ⟨.plain .lshftU64, rfl, fun _ => rfl⟩

theorem rshftU8 : Statement .rshftU8 := ⟨.plain .rshftU8, rfl, fun _ => rfl⟩

theorem rshftU16 : Statement .rshftU16 := ⟨.plain .rshftU16, rfl, fun _ => rfl⟩

theorem rshftU32 : Statement .rshftU32 := ⟨.plain .rshftU32, rfl, fun _ => rfl⟩

theorem rshftU64 : Statement .rshftU64 := ⟨.plain .rshftU64, rfl, fun _ => rfl⟩

theorem jmpU8 : Statement .jmpU8 := ⟨.plain .jmpU8, rfl, fun _ => rfl⟩

theorem jmpU16 : Statement .jmpU16 := ⟨.plain .jmpU16, rfl, fun _ => rfl⟩

theorem jmpU32 : Statement .jmpU32 := ⟨.plain .jmpU32, rfl, fun _ => rfl⟩

theorem jmpU64 : Statement .jmpU64 := ⟨.plain .jmpU64, rfl, fun _ => rfl⟩

theorem jmpifU8 : Statement .jmpifU8 := ⟨.plain .jmpifU8, rfl, fun _ => rfl⟩

theorem jmpifU16 : Statement .jmpifU16 := ⟨.plain .jmpifU16, rfl, fun _ => rfl⟩

theorem jmpifU32 : Statement .jmpifU32 := ⟨.plain .jmpifU32, rfl, fun _ => rfl⟩

theorem jmpifU64 : Statement .jmpifU64 := ⟨.plain .jmpifU64, rfl, fun _ => rfl⟩

theorem pushU8 (imm : BitVec 8) : Statement (.pushU8 imm) :=
  ⟨.push8, rfl, readImm_bytesOf (by decide) .pushU8 imm⟩

theorem pushU16 (imm : BitVec 16) : Statement (.pushU16 imm) :=
  ⟨.push16, rfl, readImm_bytesOf (by decide) .pushU16 imm⟩

theorem pushU32 (imm : BitVec 32) : Statement (.pushU32 imm) :=
  ⟨.push32, rfl, readImm_bytesOf (by decide) .pushU32 imm⟩

theorem pushU64 (imm : BitVec 64) : Statement (.pushU64 imm) :=
  ⟨.push64, rfl, readImm_bytesOf (by decide) .pushU64 imm⟩

theorem popU8 : Statement .popU8 := ⟨.plain .popU8, rfl, fun _ => rfl⟩

theorem popU16 : Statement .popU16 := ⟨.plain .popU16, rfl, fun _ => rfl⟩

theorem popU32 : Statement .popU32 := ⟨.plain .popU32, rfl, fun _ => rfl⟩

theorem popU64 : Statement .popU64 := ⟨.plain .popU64, rfl, fun _ => rfl⟩

theorem loadU8 : Statement .loadU8 := ⟨.plain .loadU8, rfl, fun _ => rfl⟩

theorem loadU16 : Statement .loadU16 := ⟨.plain .loadU16, rfl, fun _ => rfl⟩

theorem loadU32 : Statement .loadU32 := ⟨.plain .loadU32, rfl, fun _ => rfl⟩

theorem loadU64 : Statement .loadU64 := ⟨.plain .loadU64, rfl, fun _ => rfl⟩

theorem storeU8 : Statement .storeU8 := ⟨.plain .storeU8, rfl, fun _ => rfl⟩

theorem storeU16 : Statement .storeU16 := ⟨.plain .storeU16, rfl, fun _ => rfl⟩

theorem storeU32 : Statement .storeU32 := ⟨.plain .storeU32, rfl, fun _ => rfl⟩

theorem storeU64 : Statement .storeU64 := ⟨.plain .storeU64, rfl, fun _ => rfl⟩

theorem callU8 : Statement .callU8 := ⟨.plain .callU8, rfl, fun _ => rfl⟩

theorem callU16 : Statement .callU16 := ⟨.plain .callU16, rfl, fun _ => rfl⟩

theorem callU32 : Statement .callU32 := ⟨.plain .callU32, rfl, fun _ => rfl⟩

theorem callU64 : Statement .callU64 := ⟨.plain .callU64, rfl, fun _ => rfl⟩

theorem retU8 : Statement .retU8 := ⟨.plain .retU8, rfl, fun _ => rfl⟩

theorem retU16 : Statement .retU16 := ⟨.plain .retU16, rfl, fun _ => rfl⟩

theorem retU32 : Statement .retU32 := ⟨.plain .retU32, rfl, fun _ => rfl⟩

theorem retU64 : Statement .retU64 := ⟨.plain .retU64, rfl, fun _ => rfl⟩

theorem argc : Statement .argc := ⟨.plain .argc, rfl, fun _ => rfl⟩

theorem arg : Statement .arg := ⟨.plain .arg, rfl, fun _ => rfl⟩

theorem halt : Statement .halt := ⟨.plain .halt, rfl, fun _ => rfl⟩

theorem syscall : Statement .syscall := ⟨.plain .syscall, rfl, fun _ => rfl⟩

end Sys2Proof.Laws.Encoding
end

