-- ==== Sys2Proof/Tests/Slice0.lean ====
section
/-! SUPPORT. Tests: ill-formed terms that the checks refuse, the words of 30_encoding.md R87 decoded, one-step tests on
vectors of the spec (96_test_vectors_arithmetic.md, 97_test_vectors_other_families.md), and for each obligation with
hypotheses a theorem that shows a state and operands meeting them, at the boundaries of its clauses. -/

namespace Sys2Proof.Tests

set_option Elab.async false

open Sys2Proof.Machine Sys2Proof.Rules

/-! ### Well-formedness -/

theorem test_wellFormed_accepts_a_permuted_map : OpMap.wellFormed defaultOpmap.reverse = true := by decide +kernel

theorem test_wellFormed_refuses_a_short_map : OpMap.wellFormed (defaultOpmap.drop 1) = false := by decide +kernel

theorem test_wellFormed_refuses_byte_zero : OpMap.wellFormed (defaultOpmap.set 0 0x00) = false := by decide +kernel

theorem test_wellFormed_refuses_a_byte_past_AC : OpMap.wellFormed (defaultOpmap.set 171 0xAD) = false := by
  decide +kernel

theorem test_wellFormed_refuses_a_repeated_byte : OpMap.wellFormed (defaultOpmap.set 0 0x02) = false := by
  decide +kernel

theorem test_sizeOk_refuses_two_to_the_64 : sizeOk (2 ^ 64) = false ∧ sizeOk (2 ^ 64 - 1) = true := by decide

theorem test_command_refuses_a_capacity_past_64_bits :
    (Command.reset (2 ^ 64) 0 []).wellSized = false ∧ (Command.reset 0 (2 ^ 64) []).wellSized = false := by decide

/-! ### Decoding -/

/-- What the decoder reads under the default map. -/
def decoded (bs : List Byte) : Option (Instr × List Byte) :=
  match decode defaultOpmap bs with
  | .ok r => some r
  | .error _ => none

/-- Why the decoder refuses, under the default map. -/
def refusal (bs : List Byte) : Option DecodeError :=
  match decode defaultOpmap bs with
  | .ok _ => none
  | .error e => some e

/-- The opcode bytes of the table of 30_encoding.md R87, one of each instruction without an immediate. -/
theorem test_decode_arithmetic :
    ∀ p ∈ ([
      (0x01, .addU8), (0x02, .addI8), (0x03, .addU16), (0x04, .addI16), (0x05, .addU32), (0x06, .addI32), (0x07,
        .addU64), (0x08, .addI64), (0x09, .addF), (0x0A, .addD), (0x0B, .subU8), (0x0C, .subI8), (0x0D,
        .subU16), (0x0E, .subI16), (0x0F, .subU32), (0x10, .subI32), (0x11, .subU64), (0x12, .subI64), (0x13,
        .subF), (0x14, .subD), (0x15, .mulU8), (0x16, .mulI8), (0x17, .mulU16), (0x18, .mulI16), (0x19,
        .mulU32), (0x1A, .mulI32), (0x1B, .mulU64), (0x1C, .mulI64), (0x1D, .mulF), (0x1E, .mulD), (0x1F,
        .divU8), (0x20, .divI8), (0x21, .divU16), (0x22, .divI16), (0x23, .divU32), (0x24, .divI32), (0x25,
        .divU64), (0x26, .divI64), (0x27, .divF), (0x28, .divD), (0x29, .modU8), (0x2A, .modI8), (0x2B,
        .modU16), (0x2C, .modI16), (0x2D, .modU32), (0x2E, .modI32), (0x2F, .modU64), (0x30, .modI64)] : List (Byte × Instr)),
      decoded [p.1] = some (p.2, []) := by
  decide +kernel

/-- The opcode bytes of the table of 30_encoding.md R87, one of each instruction without an immediate. -/
theorem test_decode_comparison :
    ∀ p ∈ ([
      (0x31, .eqU8), (0x32, .eqI8), (0x33, .eqU16), (0x34, .eqI16), (0x35, .eqU32), (0x36, .eqI32), (0x37,
        .eqU64), (0x38, .eqI64), (0x39, .eqF), (0x3A, .eqD), (0x3B, .neqU8), (0x3C, .neqI8), (0x3D, .neqU16),
        (0x3E, .neqI16), (0x3F, .neqU32), (0x40, .neqI32), (0x41, .neqU64), (0x42, .neqI64), (0x43, .neqF),
        (0x44, .neqD), (0x45, .ltU8), (0x46, .ltI8), (0x47, .ltU16), (0x48, .ltI16), (0x49, .ltU32), (0x4A,
        .ltI32), (0x4B, .ltU64), (0x4C, .ltI64), (0x4D, .ltF), (0x4E, .ltD), (0x4F, .lteqU8), (0x50, .lteqI8),
        (0x51, .lteqU16), (0x52, .lteqI16), (0x53, .lteqU32), (0x54, .lteqI32), (0x55, .lteqU64), (0x56,
        .lteqI64), (0x57, .lteqF), (0x58, .lteqD), (0x59, .gtU8), (0x5A, .gtI8), (0x5B, .gtU16), (0x5C, .gtI16),
        (0x5D, .gtU32), (0x5E, .gtI32), (0x5F, .gtU64), (0x60, .gtI64), (0x61, .gtF), (0x62, .gtD), (0x63,
        .gteqU8), (0x64, .gteqI8), (0x65, .gteqU16), (0x66, .gteqI16), (0x67, .gteqU32), (0x68, .gteqI32),
        (0x69, .gteqU64), (0x6A, .gteqI64), (0x6B, .gteqF), (0x6C, .gteqD)] : List (Byte × Instr)),
      decoded [p.1] = some (p.2, []) := by
  decide +kernel

/-- The opcode bytes of the table of 30_encoding.md R87, one of each instruction without an immediate. -/
theorem test_decode_logical_and_shift :
    ∀ p ∈ ([
      (0x6D, .logicalAnd), (0x6E, .logicalOr), (0x6F, .logicalXor), (0x70, .logicalNot), (0x71, .andU8), (0x72,
        .andU16), (0x73, .andU32), (0x74, .andU64), (0x75, .orU8), (0x76, .orU16), (0x77, .orU32), (0x78,
        .orU64), (0x79, .xorU8), (0x7A, .xorU16), (0x7B, .xorU32), (0x7C, .xorU64), (0x7D, .notU8), (0x7E,
        .notU16), (0x7F, .notU32), (0x80, .notU64), (0x81, .lshftU8), (0x82, .lshftU16), (0x83, .lshftU32),
        (0x84, .lshftU64), (0x85, .rshftU8), (0x86, .rshftU16), (0x87, .rshftU32), (0x88, .rshftU64)] : List (Byte × Instr)),
      decoded [p.1] = some (p.2, []) := by
  decide +kernel

/-- The opcode bytes of the table of 30_encoding.md R87, one of each instruction without an immediate. -/
theorem test_decode_jump :
    ∀ p ∈ ([
      (0x89, .jmpU8), (0x8A, .jmpU16), (0x8B, .jmpU32), (0x8C, .jmpU64), (0x8D, .jmpifU8), (0x8E, .jmpifU16),
        (0x8F, .jmpifU32), (0x90, .jmpifU64)] : List (Byte × Instr)),
      decoded [p.1] = some (p.2, []) := by
  decide +kernel

/-- The opcode bytes of the table of 30_encoding.md R87, one of each instruction without an immediate. -/
theorem test_decode_stack_and_store :
    ∀ p ∈ ([
      (0x95, .popU8), (0x96, .popU16), (0x97, .popU32), (0x98, .popU64), (0x99, .loadU8), (0x9A, .loadU16),
        (0x9B, .loadU32), (0x9C, .loadU64), (0x9D, .storeU8), (0x9E, .storeU16), (0x9F, .storeU32), (0xA0,
        .storeU64)] : List (Byte × Instr)),
      decoded [p.1] = some (p.2, []) := by
  decide +kernel

/-- The opcode bytes of the table of 30_encoding.md R87, one of each instruction without an immediate. -/
theorem test_decode_call_and_frame :
    ∀ p ∈ ([
      (0xA1, .callU8), (0xA2, .callU16), (0xA3, .callU32), (0xA4, .callU64), (0xA5, .retU8), (0xA6, .retU16),
        (0xA7, .retU32), (0xA8, .retU64), (0xA9, .argc), (0xAA, .arg)] : List (Byte × Instr)),
      decoded [p.1] = some (p.2, []) := by
  decide +kernel

/-- The opcode bytes of the table of 30_encoding.md R87, one of each instruction without an immediate. -/
theorem test_decode_system :
    ∀ p ∈ ([
      (0xAB, .halt), (0xAC, .syscall)] : List (Byte × Instr)),
      decoded [p.1] = some (p.2, []) := by
  decide +kernel
/-- Immediates stand in code order, the first byte most significant (30_encoding.md R83). -/
theorem test_decode_push :
    decoded [0x91, 0x2A, 0xAB] = some (.pushU8 0x2A, [0xAB]) ∧
    decoded [0x92, 0x01, 0x2C, 0xAB] = some (.pushU16 0x012C, [0xAB]) ∧
    decoded [0x93, 0xDE, 0xAD, 0xBE, 0xEF, 0xAB] = some (.pushU32 0xDEADBEEF, [0xAB]) ∧
    decoded [0x94, 0x01, 0x23, 0x45, 0x67, 0x89, 0xAB, 0xCD, 0xEF, 0xAB] =
      some (.pushU64 0x0123456789ABCDEF, [0xAB]) := by
  decide +kernel

theorem test_decode_refuses_by_name :
    refusal [] = some .empty ∧ refusal [0x00] = some (.invalidOpcode 0x00) ∧
    refusal [0xAD, 0x01] = some (.invalidOpcode 0xAD) ∧ refusal [0xFF] = some (.invalidOpcode 0xFF) ∧
    refusal [0x91] = some .truncated ∧ refusal [0x92, 0x01] = some .truncated ∧
    refusal [0x93, 0x01, 0x02, 0x03] = some .truncated ∧
    refusal [0x94, 0x01, 0x02, 0x03, 0x04, 0x05, 0x06, 0x07] = some .truncated := by
  decide +kernel

theorem test_decodeTableWord :
    decodeTableWord 8 0xAC = some .syscall ∧ decodeTableWord 24 0x2C0192 = some (.pushU16 0x012C) ∧
    decodeTableWord 8 0x94 = some (.pushU64 0) ∧ decodeTableWord 8 0x00 = none := by
  decide +kernel

/-! ### Machines -/

/-- The bytes listed from an index on. -/
def listed : Nat → List Byte → Memory
  | _, [] => []
  | k, b :: bs => (k, b) :: listed (k + 1) bs

/-- A running machine with the bytes on its stack, bottom first; STACK_CAP is 64, STORE_CAP 16, the code empty. -/
def machine (bs : List Byte) : State :=
  { State.reset with status := .running, stack := listed 0 bs, sp := BitVec.ofNat 64 bs.length }

/-- The machine with n code bytes, all zero, and pc and fp as given. -/
def State.within (s : State) (n : Nat) (pc fp : Word) : State :=
  { s with code := List.replicate n 0, pc := pc, fp := fp }

/-- The machine with a store whose first bytes are those listed. -/
def State.storing (s : State) (bs : List Byte) : State := { s with store := listed 0 bs }

/-- n zero bytes. -/
def zeros (n : Nat) : List Byte := List.replicate n 0

/-- The state after, or the one given where there is none. -/
def after (r : Result) (s : State) : State :=
  match r with
  | .next t => t
  | .fault _ => s
  | .refused _ => s

/-- The live stack after an instruction that takes no fault, from a machine with the given stack. -/
def liveAfter (i : Instr) (bs : List Byte) : Option (List Byte) :=
  match exec i (machine bs) with
  | .next t => if t.status = .faulted then none else some t.live
  | .fault _ => none
  | .refused _ => none

/-- The cause of the fault an instruction takes. -/
def causeAfter (i : Instr) (s : State) : Option Cause :=
  match exec i s with
  | .next t => if t.status = .faulted then some t.cause else none
  | .fault _ => none
  | .refused _ => none

/-- What a step leaves without a fault: the live stack, pc, fp. -/
def seen (r : Result) : Option (List Byte × Nat × Nat) :=
  match r with
  | .next t => if t.status = .faulted then none else some (t.live, t.pc.toNat, t.fp.toNat)
  | .fault _ => none
  | .refused _ => none

/-! ### One step each: arithmetic, comparison, logic -/

/-- Sums of the ten types (T2, T6, T8, T12, T14, T18, T20, T24, T217, T242 of the spec's test vectors.) -/
theorem test_add :
    liveAfter .addU8 [0xFF, 0x01] = some [0x01, 0x00] ∧
    liveAfter .addI8 [0x80, 0x7F] = some [0xFF, 0xFF] ∧
    liveAfter .addU16 [0xFF, 0xFF, 0x00, 0x01] = some [0x00, 0x01, 0x00, 0x00] ∧
    liveAfter .addI16 [0x80, 0x00, 0x7F, 0xFF] = some [0xFF, 0xFF, 0xFF, 0xFF] ∧
    liveAfter .addU32 [0xFF, 0xFF, 0xFF, 0xFF, 0x00, 0x00, 0x00, 0x01] = some [0x00, 0x00, 0x00, 0x01, 0x00,
      0x00, 0x00, 0x00] ∧
    liveAfter .addI32 [0x80, 0x00, 0x00, 0x00, 0x7F, 0xFF, 0xFF, 0xFF] = some [0xFF, 0xFF, 0xFF, 0xFF, 0xFF,
      0xFF, 0xFF, 0xFF] ∧
    liveAfter .addU64 [0xFF, 0xFF, 0xFF, 0xFF, 0xFF, 0xFF, 0xFF, 0xFF, 0x00, 0x00, 0x00, 0x00, 0x00, 0x00, 0x00,
      0x01] = some [0x00, 0x00, 0x00, 0x00, 0x00, 0x00, 0x00, 0x00] ∧
    liveAfter .addI64 [0x80, 0x00, 0x00, 0x00, 0x00, 0x00, 0x00, 0x00, 0x7F, 0xFF, 0xFF, 0xFF, 0xFF, 0xFF, 0xFF,
      0xFF] = some [0xFF, 0xFF, 0xFF, 0xFF, 0xFF, 0xFF, 0xFF, 0xFF] ∧
    liveAfter .addF [0x3F, 0xC0, 0x00, 0x00, 0x40, 0x10, 0x00, 0x00] = some [0x40, 0x70, 0x00, 0x00] ∧
    liveAfter .addD [0x3F, 0xB9, 0x99, 0x99, 0x99, 0x99, 0x99, 0x9A, 0x3F, 0xC9, 0x99, 0x99, 0x99, 0x99, 0x99,
      0x9A] = some [0x3F, 0xD3, 0x33, 0x33, 0x33, 0x33, 0x33, 0x34] := by
  decide +kernel

/-- Differences of the ten types (T26, T29, T33, T36, T40, T43, T47, T50, T225, T246 of the spec's test
  vectors.) -/
theorem test_sub :
    liveAfter .subU8 [0xFF, 0x00] = some [0x00, 0xFF] ∧
    liveAfter .subI8 [0x7F, 0x80] = some [0x00, 0xFF] ∧
    liveAfter .subU16 [0xFF, 0xFF, 0x00, 0x00] = some [0x00, 0x00, 0xFF, 0xFF] ∧
    liveAfter .subI16 [0x7F, 0xFF, 0x80, 0x00] = some [0x00, 0x00, 0xFF, 0xFF] ∧
    liveAfter .subU32 [0xFF, 0xFF, 0xFF, 0xFF, 0x00, 0x00, 0x00, 0x00] = some [0x00, 0x00, 0x00, 0x00, 0xFF,
      0xFF, 0xFF, 0xFF] ∧
    liveAfter .subI32 [0x7F, 0xFF, 0xFF, 0xFF, 0x80, 0x00, 0x00, 0x00] = some [0x00, 0x00, 0x00, 0x00, 0xFF,
      0xFF, 0xFF, 0xFF] ∧
    liveAfter .subU64 [0xFF, 0xFF, 0xFF, 0xFF, 0xFF, 0xFF, 0xFF, 0xFF, 0x00, 0x00, 0x00, 0x00, 0x00, 0x00, 0x00,
      0x00] = some [0xFF, 0xFF, 0xFF, 0xFF, 0xFF, 0xFF, 0xFF, 0xFF] ∧
    liveAfter .subI64 [0x7F, 0xFF, 0xFF, 0xFF, 0xFF, 0xFF, 0xFF, 0xFF, 0x80, 0x00, 0x00, 0x00, 0x00, 0x00, 0x00,
      0x00] = some [0xFF, 0xFF, 0xFF, 0xFF, 0xFF, 0xFF, 0xFF, 0xFF] ∧
    liveAfter .subF [0x3F, 0x80, 0x00, 0x00, 0x3F, 0x40, 0x00, 0x00] = some [0x3E, 0x80, 0x00, 0x00] ∧
    liveAfter .subD [0x80, 0x00, 0x00, 0x00, 0x00, 0x00, 0x00, 0x00, 0x00, 0x00, 0x00, 0x00, 0x00, 0x00, 0x00,
      0x00] = some [0x80, 0x00, 0x00, 0x00, 0x00, 0x00, 0x00, 0x00] := by
  decide +kernel

/-- Products of the ten types (T54, T59, T61, T66, T68, T73, T75, T80, T229, T247 of the spec's test vectors.)
  -/
theorem test_mul :
    liveAfter .mulU8 [0xFF, 0x00] = some [0x00, 0x00] ∧
    liveAfter .mulI8 [0xFD, 0x07] = some [0xFF, 0xEB] ∧
    liveAfter .mulU16 [0xFF, 0xFF, 0x00, 0x00] = some [0x00, 0x00, 0x00, 0x00] ∧
    liveAfter .mulI16 [0xFF, 0xFD, 0x00, 0x07] = some [0xFF, 0xFF, 0xFF, 0xEB] ∧
    liveAfter .mulU32 [0xFF, 0xFF, 0xFF, 0xFF, 0x00, 0x00, 0x00, 0x00] = some [0x00, 0x00, 0x00, 0x00, 0x00,
      0x00, 0x00, 0x00] ∧
    liveAfter .mulI32 [0xFF, 0xFF, 0xFF, 0xFD, 0x00, 0x00, 0x00, 0x07] = some [0xFF, 0xFF, 0xFF, 0xFF, 0xFF,
      0xFF, 0xFF, 0xEB] ∧
    liveAfter .mulU64 [0xFF, 0xFF, 0xFF, 0xFF, 0xFF, 0xFF, 0xFF, 0xFF, 0x00, 0x00, 0x00, 0x00, 0x00, 0x00, 0x00,
      0x00] = some [0x00, 0x00, 0x00, 0x00, 0x00, 0x00, 0x00, 0x00] ∧
    liveAfter .mulI64 [0xFF, 0xFF, 0xFF, 0xFF, 0xFF, 0xFF, 0xFF, 0xFD, 0x00, 0x00, 0x00, 0x00, 0x00, 0x00, 0x00,
      0x07] = some [0xFF, 0xFF, 0xFF, 0xFF, 0xFF, 0xFF, 0xFF, 0xEB] ∧
    liveAfter .mulF [0x3F, 0xC0, 0x00, 0x00, 0x40, 0x20, 0x00, 0x00] = some [0x40, 0x70, 0x00, 0x00] ∧
    liveAfter .mulD [0x3F, 0xF8, 0x00, 0x00, 0x00, 0x00, 0x00, 0x00, 0x40, 0x04, 0x00, 0x00, 0x00, 0x00, 0x00,
      0x00] = some [0x40, 0x0E, 0x00, 0x00, 0x00, 0x00, 0x00, 0x00] := by
  decide +kernel

/-- Quotients of the ten types (T83, T89, T100, T106, T117, T123, T134, T140, T235, T250 of the spec's test
  vectors.) -/
theorem test_div :
    liveAfter .divU8 [0xFF, 0x01] = some [0xFF] ∧
    liveAfter .divI8 [0xF9, 0x02] = some [0xFD] ∧
    liveAfter .divU16 [0xFF, 0xFF, 0x00, 0x01] = some [0xFF, 0xFF] ∧
    liveAfter .divI16 [0xFF, 0xF9, 0x00, 0x02] = some [0xFF, 0xFD] ∧
    liveAfter .divU32 [0xFF, 0xFF, 0xFF, 0xFF, 0x00, 0x00, 0x00, 0x01] = some [0xFF, 0xFF, 0xFF, 0xFF] ∧
    liveAfter .divI32 [0xFF, 0xFF, 0xFF, 0xF9, 0x00, 0x00, 0x00, 0x02] = some [0xFF, 0xFF, 0xFF, 0xFD] ∧
    liveAfter .divU64 [0xFF, 0xFF, 0xFF, 0xFF, 0xFF, 0xFF, 0xFF, 0xFF, 0x00, 0x00, 0x00, 0x00, 0x00, 0x00, 0x00,
      0x01] = some [0xFF, 0xFF, 0xFF, 0xFF, 0xFF, 0xFF, 0xFF, 0xFF] ∧
    liveAfter .divI64 [0xFF, 0xFF, 0xFF, 0xFF, 0xFF, 0xFF, 0xFF, 0xF9, 0x00, 0x00, 0x00, 0x00, 0x00, 0x00, 0x00,
      0x02] = some [0xFF, 0xFF, 0xFF, 0xFF, 0xFF, 0xFF, 0xFF, 0xFD] ∧
    liveAfter .divF [0x3F, 0x80, 0x00, 0x00, 0x40, 0x40, 0x00, 0x00] = some [0x3E, 0xAA, 0xAA, 0xAB] ∧
    liveAfter .divD [0x3F, 0xF0, 0x00, 0x00, 0x00, 0x00, 0x00, 0x00, 0x40, 0x08, 0x00, 0x00, 0x00, 0x00, 0x00,
      0x00] = some [0x3F, 0xD5, 0x55, 0x55, 0x55, 0x55, 0x55, 0x55] := by
  decide +kernel

/-- Remainders of the eight integer types (T152, T157, T169, T174, T186, T191, T203, T208 of the spec's test
  vectors.) -/
theorem test_mod :
    liveAfter .modU8 [0x01, 0xFF] = some [0x01] ∧
    liveAfter .modI8 [0xF9, 0x02] = some [0xFF] ∧
    liveAfter .modU16 [0x00, 0x01, 0xFF, 0xFF] = some [0x00, 0x01] ∧
    liveAfter .modI16 [0xFF, 0xF9, 0x00, 0x02] = some [0xFF, 0xFF] ∧
    liveAfter .modU32 [0x00, 0x00, 0x00, 0x01, 0xFF, 0xFF, 0xFF, 0xFF] = some [0x00, 0x00, 0x00, 0x01] ∧
    liveAfter .modI32 [0xFF, 0xFF, 0xFF, 0xF9, 0x00, 0x00, 0x00, 0x02] = some [0xFF, 0xFF, 0xFF, 0xFF] ∧
    liveAfter .modU64 [0x00, 0x00, 0x00, 0x00, 0x00, 0x00, 0x00, 0x01, 0xFF, 0xFF, 0xFF, 0xFF, 0xFF, 0xFF, 0xFF,
      0xFF] = some [0x00, 0x00, 0x00, 0x00, 0x00, 0x00, 0x00, 0x01] ∧
    liveAfter .modI64 [0xFF, 0xFF, 0xFF, 0xFF, 0xFF, 0xFF, 0xFF, 0xF9, 0x00, 0x00, 0x00, 0x00, 0x00, 0x00, 0x00,
      0x02] = some [0xFF, 0xFF, 0xFF, 0xFF, 0xFF, 0xFF, 0xFF, 0xFF] := by
  decide +kernel

/-- EQ on the ten types, one pair each way (T257, T256, T262, T261, T267, T266, T272, T271, T277, T276, T282,
  T281, T287, T286, T292, T291, T297, T296, T306, T305 of the spec's test vectors.) -/
theorem test_eq :
    liveAfter .eqU8 [0xFF, 0x01] = some [0x00] ∧
    liveAfter .eqU8 [0x05, 0x05] = some [0x01] ∧
    liveAfter .eqI8 [0xFF, 0x01] = some [0x00] ∧
    liveAfter .eqI8 [0x05, 0x05] = some [0x01] ∧
    liveAfter .eqU16 [0xFF, 0xFF, 0x00, 0x01] = some [0x00] ∧
    liveAfter .eqU16 [0x00, 0x05, 0x00, 0x05] = some [0x01] ∧
    liveAfter .eqI16 [0xFF, 0xFF, 0x00, 0x01] = some [0x00] ∧
    liveAfter .eqI16 [0x00, 0x05, 0x00, 0x05] = some [0x01] ∧
    liveAfter .eqU32 [0xFF, 0xFF, 0xFF, 0xFF, 0x00, 0x00, 0x00, 0x01] = some [0x00] ∧
    liveAfter .eqU32 [0x00, 0x00, 0x00, 0x05, 0x00, 0x00, 0x00, 0x05] = some [0x01] ∧
    liveAfter .eqI32 [0xFF, 0xFF, 0xFF, 0xFF, 0x00, 0x00, 0x00, 0x01] = some [0x00] ∧
    liveAfter .eqI32 [0x00, 0x00, 0x00, 0x05, 0x00, 0x00, 0x00, 0x05] = some [0x01] ∧
    liveAfter .eqU64 [0xFF, 0xFF, 0xFF, 0xFF, 0xFF, 0xFF, 0xFF, 0xFF, 0x00, 0x00, 0x00, 0x00, 0x00, 0x00, 0x00,
      0x01] = some [0x00] ∧
    liveAfter .eqU64 [0x00, 0x00, 0x00, 0x00, 0x00, 0x00, 0x00, 0x05, 0x00, 0x00, 0x00, 0x00, 0x00, 0x00, 0x00,
      0x05] = some [0x01] ∧
    liveAfter .eqI64 [0xFF, 0xFF, 0xFF, 0xFF, 0xFF, 0xFF, 0xFF, 0xFF, 0x00, 0x00, 0x00, 0x00, 0x00, 0x00, 0x00,
      0x01] = some [0x00] ∧
    liveAfter .eqI64 [0x00, 0x00, 0x00, 0x00, 0x00, 0x00, 0x00, 0x05, 0x00, 0x00, 0x00, 0x00, 0x00, 0x00, 0x00,
      0x05] = some [0x01] ∧
    liveAfter .eqF [0x80, 0x00, 0x00, 0x00, 0x00, 0x00, 0x00, 0x00] = some [0x01] ∧
    liveAfter .eqF [0xBF, 0x80, 0x00, 0x00, 0x3F, 0x80, 0x00, 0x00] = some [0x00] ∧
    liveAfter .eqD [0x80, 0x00, 0x00, 0x00, 0x00, 0x00, 0x00, 0x00, 0x00, 0x00, 0x00, 0x00, 0x00, 0x00, 0x00,
      0x00] = some [0x01] ∧
    liveAfter .eqD [0xBF, 0xF0, 0x00, 0x00, 0x00, 0x00, 0x00, 0x00, 0x3F, 0xF0, 0x00, 0x00, 0x00, 0x00, 0x00,
      0x00] = some [0x00] := by
  decide +kernel

/-- NEQ on the ten types, one pair each way (T257, T256, T262, T261, T267, T315, T272, T271, T277, T276, T282,
  T281, T287, T286, T292, T291, T296, T297, T305, T306 of the spec's test vectors.) -/
theorem test_neq :
    liveAfter .neqU8 [0xFF, 0x01] = some [0x01] ∧
    liveAfter .neqU8 [0x05, 0x05] = some [0x00] ∧
    liveAfter .neqI8 [0xFF, 0x01] = some [0x01] ∧
    liveAfter .neqI8 [0x05, 0x05] = some [0x00] ∧
    liveAfter .neqU16 [0xFF, 0xFF, 0x00, 0x01] = some [0x01] ∧
    liveAfter .neqU16 [0x77, 0x12, 0x34, 0x12, 0x35] = some [0x77, 0x01] ∧
    liveAfter .neqI16 [0xFF, 0xFF, 0x00, 0x01] = some [0x01] ∧
    liveAfter .neqI16 [0x00, 0x05, 0x00, 0x05] = some [0x00] ∧
    liveAfter .neqU32 [0xFF, 0xFF, 0xFF, 0xFF, 0x00, 0x00, 0x00, 0x01] = some [0x01] ∧
    liveAfter .neqU32 [0x00, 0x00, 0x00, 0x05, 0x00, 0x00, 0x00, 0x05] = some [0x00] ∧
    liveAfter .neqI32 [0xFF, 0xFF, 0xFF, 0xFF, 0x00, 0x00, 0x00, 0x01] = some [0x01] ∧
    liveAfter .neqI32 [0x00, 0x00, 0x00, 0x05, 0x00, 0x00, 0x00, 0x05] = some [0x00] ∧
    liveAfter .neqU64 [0xFF, 0xFF, 0xFF, 0xFF, 0xFF, 0xFF, 0xFF, 0xFF, 0x00, 0x00, 0x00, 0x00, 0x00, 0x00, 0x00,
      0x01] = some [0x01] ∧
    liveAfter .neqU64 [0x00, 0x00, 0x00, 0x00, 0x00, 0x00, 0x00, 0x05, 0x00, 0x00, 0x00, 0x00, 0x00, 0x00, 0x00,
      0x05] = some [0x00] ∧
    liveAfter .neqI64 [0xFF, 0xFF, 0xFF, 0xFF, 0xFF, 0xFF, 0xFF, 0xFF, 0x00, 0x00, 0x00, 0x00, 0x00, 0x00, 0x00,
      0x01] = some [0x01] ∧
    liveAfter .neqI64 [0x00, 0x00, 0x00, 0x00, 0x00, 0x00, 0x00, 0x05, 0x00, 0x00, 0x00, 0x00, 0x00, 0x00, 0x00,
      0x05] = some [0x00] ∧
    liveAfter .neqF [0xBF, 0x80, 0x00, 0x00, 0x3F, 0x80, 0x00, 0x00] = some [0x01] ∧
    liveAfter .neqF [0x80, 0x00, 0x00, 0x00, 0x00, 0x00, 0x00, 0x00] = some [0x00] ∧
    liveAfter .neqD [0xBF, 0xF0, 0x00, 0x00, 0x00, 0x00, 0x00, 0x00, 0x3F, 0xF0, 0x00, 0x00, 0x00, 0x00, 0x00,
      0x00] = some [0x01] ∧
    liveAfter .neqD [0x80, 0x00, 0x00, 0x00, 0x00, 0x00, 0x00, 0x00, 0x00, 0x00, 0x00, 0x00, 0x00, 0x00, 0x00,
      0x00] = some [0x00] := by
  decide +kernel

/-- LT on the ten types, one pair each way (T257, T254, T262, T260, T267, T264, T272, T270, T277, T274, T282,
  T280, T287, T284, T292, T290, T294, T295, T303, T304 of the spec's test vectors.) -/
theorem test_lt :
    liveAfter .ltU8 [0xFF, 0x01] = some [0x00] ∧
    liveAfter .ltU8 [0x01, 0x02] = some [0x01] ∧
    liveAfter .ltI8 [0xFF, 0x01] = some [0x01] ∧
    liveAfter .ltI8 [0x02, 0x01] = some [0x00] ∧
    liveAfter .ltU16 [0xFF, 0xFF, 0x00, 0x01] = some [0x00] ∧
    liveAfter .ltU16 [0x00, 0x01, 0x00, 0x02] = some [0x01] ∧
    liveAfter .ltI16 [0xFF, 0xFF, 0x00, 0x01] = some [0x01] ∧
    liveAfter .ltI16 [0x00, 0x02, 0x00, 0x01] = some [0x00] ∧
    liveAfter .ltU32 [0xFF, 0xFF, 0xFF, 0xFF, 0x00, 0x00, 0x00, 0x01] = some [0x00] ∧
    liveAfter .ltU32 [0x00, 0x00, 0x00, 0x01, 0x00, 0x00, 0x00, 0x02] = some [0x01] ∧
    liveAfter .ltI32 [0xFF, 0xFF, 0xFF, 0xFF, 0x00, 0x00, 0x00, 0x01] = some [0x01] ∧
    liveAfter .ltI32 [0x00, 0x00, 0x00, 0x02, 0x00, 0x00, 0x00, 0x01] = some [0x00] ∧
    liveAfter .ltU64 [0xFF, 0xFF, 0xFF, 0xFF, 0xFF, 0xFF, 0xFF, 0xFF, 0x00, 0x00, 0x00, 0x00, 0x00, 0x00, 0x00,
      0x01] = some [0x00] ∧
    liveAfter .ltU64 [0x00, 0x00, 0x00, 0x00, 0x00, 0x00, 0x00, 0x01, 0x00, 0x00, 0x00, 0x00, 0x00, 0x00, 0x00,
      0x02] = some [0x01] ∧
    liveAfter .ltI64 [0xFF, 0xFF, 0xFF, 0xFF, 0xFF, 0xFF, 0xFF, 0xFF, 0x00, 0x00, 0x00, 0x00, 0x00, 0x00, 0x00,
      0x01] = some [0x01] ∧
    liveAfter .ltI64 [0x00, 0x00, 0x00, 0x00, 0x00, 0x00, 0x00, 0x02, 0x00, 0x00, 0x00, 0x00, 0x00, 0x00, 0x00,
      0x01] = some [0x00] ∧
    liveAfter .ltF [0x3F, 0xC0, 0x00, 0x00, 0x40, 0x20, 0x00, 0x00] = some [0x01] ∧
    liveAfter .ltF [0x40, 0x20, 0x00, 0x00, 0x3F, 0xC0, 0x00, 0x00] = some [0x00] ∧
    liveAfter .ltD [0x3F, 0xF8, 0x00, 0x00, 0x00, 0x00, 0x00, 0x00, 0x40, 0x04, 0x00, 0x00, 0x00, 0x00, 0x00,
      0x00] = some [0x01] ∧
    liveAfter .ltD [0x40, 0x04, 0x00, 0x00, 0x00, 0x00, 0x00, 0x00, 0x3F, 0xF8, 0x00, 0x00, 0x00, 0x00, 0x00,
      0x00] = some [0x00] := by
  decide +kernel

/-- LTEQ on the ten types, one pair each way (T257, T254, T262, T260, T267, T264, T272, T270, T277, T274, T282,
  T280, T287, T284, T292, T290, T294, T295, T303, T304 of the spec's test vectors.) -/
theorem test_lteq :
    liveAfter .lteqU8 [0xFF, 0x01] = some [0x00] ∧
    liveAfter .lteqU8 [0x01, 0x02] = some [0x01] ∧
    liveAfter .lteqI8 [0xFF, 0x01] = some [0x01] ∧
    liveAfter .lteqI8 [0x02, 0x01] = some [0x00] ∧
    liveAfter .lteqU16 [0xFF, 0xFF, 0x00, 0x01] = some [0x00] ∧
    liveAfter .lteqU16 [0x00, 0x01, 0x00, 0x02] = some [0x01] ∧
    liveAfter .lteqI16 [0xFF, 0xFF, 0x00, 0x01] = some [0x01] ∧
    liveAfter .lteqI16 [0x00, 0x02, 0x00, 0x01] = some [0x00] ∧
    liveAfter .lteqU32 [0xFF, 0xFF, 0xFF, 0xFF, 0x00, 0x00, 0x00, 0x01] = some [0x00] ∧
    liveAfter .lteqU32 [0x00, 0x00, 0x00, 0x01, 0x00, 0x00, 0x00, 0x02] = some [0x01] ∧
    liveAfter .lteqI32 [0xFF, 0xFF, 0xFF, 0xFF, 0x00, 0x00, 0x00, 0x01] = some [0x01] ∧
    liveAfter .lteqI32 [0x00, 0x00, 0x00, 0x02, 0x00, 0x00, 0x00, 0x01] = some [0x00] ∧
    liveAfter .lteqU64 [0xFF, 0xFF, 0xFF, 0xFF, 0xFF, 0xFF, 0xFF, 0xFF, 0x00, 0x00, 0x00, 0x00, 0x00, 0x00,
      0x00, 0x01] = some [0x00] ∧
    liveAfter .lteqU64 [0x00, 0x00, 0x00, 0x00, 0x00, 0x00, 0x00, 0x01, 0x00, 0x00, 0x00, 0x00, 0x00, 0x00,
      0x00, 0x02] = some [0x01] ∧
    liveAfter .lteqI64 [0xFF, 0xFF, 0xFF, 0xFF, 0xFF, 0xFF, 0xFF, 0xFF, 0x00, 0x00, 0x00, 0x00, 0x00, 0x00,
      0x00, 0x01] = some [0x01] ∧
    liveAfter .lteqI64 [0x00, 0x00, 0x00, 0x00, 0x00, 0x00, 0x00, 0x02, 0x00, 0x00, 0x00, 0x00, 0x00, 0x00,
      0x00, 0x01] = some [0x00] ∧
    liveAfter .lteqF [0x3F, 0xC0, 0x00, 0x00, 0x40, 0x20, 0x00, 0x00] = some [0x01] ∧
    liveAfter .lteqF [0x40, 0x20, 0x00, 0x00, 0x3F, 0xC0, 0x00, 0x00] = some [0x00] ∧
    liveAfter .lteqD [0x3F, 0xF8, 0x00, 0x00, 0x00, 0x00, 0x00, 0x00, 0x40, 0x04, 0x00, 0x00, 0x00, 0x00, 0x00,
      0x00] = some [0x01] ∧
    liveAfter .lteqD [0x40, 0x04, 0x00, 0x00, 0x00, 0x00, 0x00, 0x00, 0x3F, 0xF8, 0x00, 0x00, 0x00, 0x00, 0x00,
      0x00] = some [0x00] := by
  decide +kernel

/-- GT on the ten types, one pair each way (T257, T254, T262, T260, T267, T264, T272, T270, T277, T274, T282,
  T280, T287, T284, T292, T290, T295, T294, T304, T303 of the spec's test vectors.) -/
theorem test_gt :
    liveAfter .gtU8 [0xFF, 0x01] = some [0x01] ∧
    liveAfter .gtU8 [0x01, 0x02] = some [0x00] ∧
    liveAfter .gtI8 [0xFF, 0x01] = some [0x00] ∧
    liveAfter .gtI8 [0x02, 0x01] = some [0x01] ∧
    liveAfter .gtU16 [0xFF, 0xFF, 0x00, 0x01] = some [0x01] ∧
    liveAfter .gtU16 [0x00, 0x01, 0x00, 0x02] = some [0x00] ∧
    liveAfter .gtI16 [0xFF, 0xFF, 0x00, 0x01] = some [0x00] ∧
    liveAfter .gtI16 [0x00, 0x02, 0x00, 0x01] = some [0x01] ∧
    liveAfter .gtU32 [0xFF, 0xFF, 0xFF, 0xFF, 0x00, 0x00, 0x00, 0x01] = some [0x01] ∧
    liveAfter .gtU32 [0x00, 0x00, 0x00, 0x01, 0x00, 0x00, 0x00, 0x02] = some [0x00] ∧
    liveAfter .gtI32 [0xFF, 0xFF, 0xFF, 0xFF, 0x00, 0x00, 0x00, 0x01] = some [0x00] ∧
    liveAfter .gtI32 [0x00, 0x00, 0x00, 0x02, 0x00, 0x00, 0x00, 0x01] = some [0x01] ∧
    liveAfter .gtU64 [0xFF, 0xFF, 0xFF, 0xFF, 0xFF, 0xFF, 0xFF, 0xFF, 0x00, 0x00, 0x00, 0x00, 0x00, 0x00, 0x00,
      0x01] = some [0x01] ∧
    liveAfter .gtU64 [0x00, 0x00, 0x00, 0x00, 0x00, 0x00, 0x00, 0x01, 0x00, 0x00, 0x00, 0x00, 0x00, 0x00, 0x00,
      0x02] = some [0x00] ∧
    liveAfter .gtI64 [0xFF, 0xFF, 0xFF, 0xFF, 0xFF, 0xFF, 0xFF, 0xFF, 0x00, 0x00, 0x00, 0x00, 0x00, 0x00, 0x00,
      0x01] = some [0x00] ∧
    liveAfter .gtI64 [0x00, 0x00, 0x00, 0x00, 0x00, 0x00, 0x00, 0x02, 0x00, 0x00, 0x00, 0x00, 0x00, 0x00, 0x00,
      0x01] = some [0x01] ∧
    liveAfter .gtF [0x40, 0x20, 0x00, 0x00, 0x3F, 0xC0, 0x00, 0x00] = some [0x01] ∧
    liveAfter .gtF [0x3F, 0xC0, 0x00, 0x00, 0x40, 0x20, 0x00, 0x00] = some [0x00] ∧
    liveAfter .gtD [0x40, 0x04, 0x00, 0x00, 0x00, 0x00, 0x00, 0x00, 0x3F, 0xF8, 0x00, 0x00, 0x00, 0x00, 0x00,
      0x00] = some [0x01] ∧
    liveAfter .gtD [0x3F, 0xF8, 0x00, 0x00, 0x00, 0x00, 0x00, 0x00, 0x40, 0x04, 0x00, 0x00, 0x00, 0x00, 0x00,
      0x00] = some [0x00] := by
  decide +kernel

/-- GTEQ on the ten types, one pair each way (T257, T254, T262, T260, T267, T264, T272, T270, T277, T274, T282,
  T280, T287, T284, T292, T290, T295, T294, T304, T303 of the spec's test vectors.) -/
theorem test_gteq :
    liveAfter .gteqU8 [0xFF, 0x01] = some [0x01] ∧
    liveAfter .gteqU8 [0x01, 0x02] = some [0x00] ∧
    liveAfter .gteqI8 [0xFF, 0x01] = some [0x00] ∧
    liveAfter .gteqI8 [0x02, 0x01] = some [0x01] ∧
    liveAfter .gteqU16 [0xFF, 0xFF, 0x00, 0x01] = some [0x01] ∧
    liveAfter .gteqU16 [0x00, 0x01, 0x00, 0x02] = some [0x00] ∧
    liveAfter .gteqI16 [0xFF, 0xFF, 0x00, 0x01] = some [0x00] ∧
    liveAfter .gteqI16 [0x00, 0x02, 0x00, 0x01] = some [0x01] ∧
    liveAfter .gteqU32 [0xFF, 0xFF, 0xFF, 0xFF, 0x00, 0x00, 0x00, 0x01] = some [0x01] ∧
    liveAfter .gteqU32 [0x00, 0x00, 0x00, 0x01, 0x00, 0x00, 0x00, 0x02] = some [0x00] ∧
    liveAfter .gteqI32 [0xFF, 0xFF, 0xFF, 0xFF, 0x00, 0x00, 0x00, 0x01] = some [0x00] ∧
    liveAfter .gteqI32 [0x00, 0x00, 0x00, 0x02, 0x00, 0x00, 0x00, 0x01] = some [0x01] ∧
    liveAfter .gteqU64 [0xFF, 0xFF, 0xFF, 0xFF, 0xFF, 0xFF, 0xFF, 0xFF, 0x00, 0x00, 0x00, 0x00, 0x00, 0x00,
      0x00, 0x01] = some [0x01] ∧
    liveAfter .gteqU64 [0x00, 0x00, 0x00, 0x00, 0x00, 0x00, 0x00, 0x01, 0x00, 0x00, 0x00, 0x00, 0x00, 0x00,
      0x00, 0x02] = some [0x00] ∧
    liveAfter .gteqI64 [0xFF, 0xFF, 0xFF, 0xFF, 0xFF, 0xFF, 0xFF, 0xFF, 0x00, 0x00, 0x00, 0x00, 0x00, 0x00,
      0x00, 0x01] = some [0x00] ∧
    liveAfter .gteqI64 [0x00, 0x00, 0x00, 0x00, 0x00, 0x00, 0x00, 0x02, 0x00, 0x00, 0x00, 0x00, 0x00, 0x00,
      0x00, 0x01] = some [0x01] ∧
    liveAfter .gteqF [0x40, 0x20, 0x00, 0x00, 0x3F, 0xC0, 0x00, 0x00] = some [0x01] ∧
    liveAfter .gteqF [0x3F, 0xC0, 0x00, 0x00, 0x40, 0x20, 0x00, 0x00] = some [0x00] ∧
    liveAfter .gteqD [0x40, 0x04, 0x00, 0x00, 0x00, 0x00, 0x00, 0x00, 0x3F, 0xF8, 0x00, 0x00, 0x00, 0x00, 0x00,
      0x00] = some [0x01] ∧
    liveAfter .gteqD [0x3F, 0xF8, 0x00, 0x00, 0x00, 0x00, 0x00, 0x00, 0x40, 0x04, 0x00, 0x00, 0x00, 0x00, 0x00,
      0x00] = some [0x00] := by
  decide +kernel

/-- AND, OR, XOR and NOT on truth (T321, T320, T328, T323, T335, T334, T340, T337 of the spec's test vectors.)
  -/
theorem test_logical :
    liveAfter .logicalAnd [0x80, 0x00] = some [0x00] ∧
    liveAfter .logicalAnd [0x02, 0x04] = some [0x01] ∧
    liveAfter .logicalOr [0x80, 0x00] = some [0x01] ∧
    liveAfter .logicalOr [0x00, 0x00] = some [0x00] ∧
    liveAfter .logicalXor [0x80, 0x00] = some [0x01] ∧
    liveAfter .logicalXor [0x02, 0x04] = some [0x00] ∧
    liveAfter .logicalNot [0x80] = some [0x00] ∧
    liveAfter .logicalNot [0x00] = some [0x01] := by
  decide +kernel

/-- AND bit by bit (T344, T345, T346, T347 of the spec's test vectors.) -/
theorem test_bitwise_and :
    liveAfter .andU8 [0xCA, 0x5C] = some [0x48] ∧
    liveAfter .andU16 [0xF0, 0xF0, 0x3C, 0x3C] = some [0x30, 0x30] ∧
    liveAfter .andU32 [0xDE, 0xAD, 0xBE, 0xEF, 0x00, 0x00, 0xFF, 0xFF] = some [0x00, 0x00, 0xBE, 0xEF] ∧
    liveAfter .andU64 [0x01, 0x23, 0x45, 0x67, 0x89, 0xAB, 0xCD, 0xEF, 0xFF, 0x00, 0xFF, 0x00, 0xFF, 0x00, 0xFF,
      0x00] = some [0x01, 0x00, 0x45, 0x00, 0x89, 0x00, 0xCD, 0x00] := by
  decide +kernel

/-- OR bit by bit (T348, T349, T350, T351 of the spec's test vectors.) -/
theorem test_bitwise_or :
    liveAfter .orU8 [0xCA, 0x5C] = some [0xDE] ∧
    liveAfter .orU16 [0xF0, 0xF0, 0x3C, 0x3C] = some [0xFC, 0xFC] ∧
    liveAfter .orU32 [0xDE, 0xAD, 0xBE, 0xEF, 0x00, 0x00, 0xFF, 0xFF] = some [0xDE, 0xAD, 0xFF, 0xFF] ∧
    liveAfter .orU64 [0x01, 0x23, 0x45, 0x67, 0x89, 0xAB, 0xCD, 0xEF, 0xFF, 0x00, 0xFF, 0x00, 0xFF, 0x00, 0xFF,
      0x00] = some [0xFF, 0x23, 0xFF, 0x67, 0xFF, 0xAB, 0xFF, 0xEF] := by
  decide +kernel

/-- XOR bit by bit (T352, T353, T354, T355 of the spec's test vectors.) -/
theorem test_bitwise_xor :
    liveAfter .xorU8 [0xCA, 0x5C] = some [0x96] ∧
    liveAfter .xorU16 [0xF0, 0xF0, 0x3C, 0x3C] = some [0xCC, 0xCC] ∧
    liveAfter .xorU32 [0xDE, 0xAD, 0xBE, 0xEF, 0x00, 0x00, 0xFF, 0xFF] = some [0xDE, 0xAD, 0x41, 0x10] ∧
    liveAfter .xorU64 [0x01, 0x23, 0x45, 0x67, 0x89, 0xAB, 0xCD, 0xEF, 0xFF, 0x00, 0xFF, 0x00, 0xFF, 0x00, 0xFF,
      0x00] = some [0xFE, 0x23, 0xBA, 0x67, 0x76, 0xAB, 0x32, 0xEF] := by
  decide +kernel

/-- NOT bit by bit (T357, T359, T361, T363 of the spec's test vectors.) -/
theorem test_bitwise_not :
    liveAfter .notU8 [0xCA] = some [0x35] ∧
    liveAfter .notU16 [0xF0, 0xF0] = some [0x0F, 0x0F] ∧
    liveAfter .notU32 [0xDE, 0xAD, 0xBE, 0xEF] = some [0x21, 0x52, 0x41, 0x10] ∧
    liveAfter .notU64 [0x01, 0x23, 0x45, 0x67, 0x89, 0xAB, 0xCD, 0xEF] = some [0xFE, 0xDC, 0xBA, 0x98, 0x76,
      0x54, 0x32, 0x10] := by
  decide +kernel

/-- LSHFT by one and by the width or more (T367, T369, T373, T375, T379, T381, T385, T387 of the spec's test
  vectors.) -/
theorem test_lshft :
    liveAfter .lshftU8 [0x96, 0x01] = some [0x2C] ∧
    liveAfter .lshftU8 [0x96, 0x08] = some [0x00] ∧
    liveAfter .lshftU16 [0x80, 0x01, 0x01] = some [0x00, 0x02] ∧
    liveAfter .lshftU16 [0x80, 0x01, 0x10] = some [0x00, 0x00] ∧
    liveAfter .lshftU32 [0x80, 0x00, 0x00, 0x01, 0x01] = some [0x00, 0x00, 0x00, 0x02] ∧
    liveAfter .lshftU32 [0x80, 0x00, 0x00, 0x01, 0x20] = some [0x00, 0x00, 0x00, 0x00] ∧
    liveAfter .lshftU64 [0x80, 0x00, 0x00, 0x00, 0x00, 0x00, 0x00, 0x01, 0x01] = some [0x00, 0x00, 0x00, 0x00,
      0x00, 0x00, 0x00, 0x02] ∧
    liveAfter .lshftU64 [0x80, 0x00, 0x00, 0x00, 0x00, 0x00, 0x00, 0x01, 0x40] = some [0x00, 0x00, 0x00, 0x00,
      0x00, 0x00, 0x00, 0x00] := by
  decide +kernel

/-- RSHFT by one and by the width or more (T391, T393, T397, T399, T403, T405, T409, T411 of the spec's test
  vectors.) -/
theorem test_rshft :
    liveAfter .rshftU8 [0x96, 0x01] = some [0x4B] ∧
    liveAfter .rshftU8 [0x96, 0x08] = some [0x00] ∧
    liveAfter .rshftU16 [0x80, 0x01, 0x01] = some [0x40, 0x00] ∧
    liveAfter .rshftU16 [0x80, 0x01, 0x10] = some [0x00, 0x00] ∧
    liveAfter .rshftU32 [0x80, 0x00, 0x00, 0x01, 0x01] = some [0x40, 0x00, 0x00, 0x00] ∧
    liveAfter .rshftU32 [0x80, 0x00, 0x00, 0x01, 0x20] = some [0x00, 0x00, 0x00, 0x00] ∧
    liveAfter .rshftU64 [0x80, 0x00, 0x00, 0x00, 0x00, 0x00, 0x00, 0x01, 0x01] = some [0x40, 0x00, 0x00, 0x00,
      0x00, 0x00, 0x00, 0x00] ∧
    liveAfter .rshftU64 [0x80, 0x00, 0x00, 0x00, 0x00, 0x00, 0x00, 0x01, 0x40] = some [0x00, 0x00, 0x00, 0x00,
      0x00, 0x00, 0x00, 0x00] := by
  decide +kernel
/-- A zero divisor is a fault of integer DIV and MOD and of no float form (T86, T236; 41_arithmetic.md R134, R135). -/
theorem test_zero_divisor :
    causeAfter .divU8 (machine [0x05, 0x00]) = some .divisionByZero ∧
    causeAfter .divI8 (machine [0x05, 0x00]) = some .divisionByZero ∧
    causeAfter .modU16 (machine [0x00, 0x05, 0x00, 0x00]) = some .divisionByZero ∧
    liveAfter .divF [0x3F, 0x80, 0x00, 0x00, 0x00, 0x00, 0x00, 0x00] = some [0x7F, 0x80, 0x00, 0x00] := by
  decide +kernel

/-- -128 / -1 wraps or faults, as SDIV_OVF says (T92 and 41_arithmetic.md R134). -/
theorem test_signed_division_overflow :
    liveAfter .divI8 [0x80, 0xFF] = some [0x80] ∧ liveAfter .modI8 [0x80, 0xFF] = some [0x00] ∧
    causeAfter .divI8 { machine [0x80, 0xFF] with params := ⟨64, 16, .fault, []⟩ } = some .divisionByZero := by
  decide +kernel

/-! ### One step each: control flow, stack and store, system -/

/-- The frame of T427, below the bytes a callee has pushed. -/
def frame : List Byte :=
  [0x77, 0x14, 0x0A, 0x02, 0x00, 0x00, 0x00, 0x00, 0x00, 0x00, 0x00, 0x0A, 0x00, 0x00, 0x00, 0x00, 0x00, 0x00, 0x00, 0x00]

/-- T416, T417 in four widths: the last byte of the code is a target, the one past it is none. -/
theorem test_jmp :
    seen (exec .jmpU8 (State.within (machine [0x3F]) 64 1 0)) = some ([], 63, 0) ∧
    seen (exec .jmpU16 (State.within (machine [0x00, 0x3F]) 64 1 0)) = some ([], 63, 0) ∧
    seen (exec .jmpU32 (State.within (machine [0x00, 0x00, 0x00, 0x3F]) 64 1 0)) = some ([], 63, 0) ∧
    seen (exec .jmpU64 (State.within (machine (zeros 7 ++ [0x3F])) 64 1 0)) = some ([], 63, 0) ∧
    causeAfter .jmpU8 (State.within (machine [0x40]) 64 1 0) = some .invalidJumpTarget ∧
    causeAfter .jmpU16 (State.within (machine [0x01, 0x00]) 64 1 0) = some .invalidJumpTarget := by
  decide +kernel

/-- T422, T423, T424 in four widths: an untaken branch checks no target. -/
theorem test_jmpif :
    seen (exec .jmpifU8 (State.within (machine [0x00, 0xC8]) 64 1 0)) = some ([], 1, 0) ∧
    causeAfter .jmpifU8 (State.within (machine [0x01, 0xC8]) 64 1 0) = some .invalidJumpTarget ∧
    seen (exec .jmpifU8 (State.within (machine [0x80, 0x05]) 64 1 0)) = some ([], 5, 0) ∧
    seen (exec .jmpifU16 (State.within (machine [0x80, 0x00, 0x05]) 64 1 0)) = some ([], 5, 0) ∧
    seen (exec .jmpifU32 (State.within (machine [0x80, 0x00, 0x00, 0x00, 0x05]) 64 1 0)) = some ([], 5, 0) ∧
    seen (exec .jmpifU64 (State.within (machine ([0x80] ++ zeros 7 ++ [0x05])) 64 1 0)) = some ([], 5, 0) := by
  decide +kernel

/-- T427, T429, T431 and T427's target in the wider forms. -/
theorem test_call :
    seen (exec .callU8 (State.within (machine [0x14, 0x0A, 0x02, 0x20]) 64 10 0)) =
      some ([0x14, 0x0A, 0x02] ++ zeros 7 ++ [0x0A] ++ zeros 8, 32, 19) ∧
    seen (exec .callU16 (State.within (machine [0x14, 0x00, 0x20]) 64 10 1)) =
      some ([0x14] ++ zeros 7 ++ [0x0A] ++ zeros 7 ++ [0x01], 32, 17) ∧
    seen (exec .callU32 (State.within (machine [0x14, 0x00, 0x00, 0x00, 0x20]) 64 10 1)) =
      some ([0x14] ++ zeros 7 ++ [0x0A] ++ zeros 7 ++ [0x01], 32, 17) ∧
    seen (exec .callU64 (State.within (machine ([0x14] ++ zeros 7 ++ [0x20])) 64 10 1)) =
      some ([0x14] ++ zeros 7 ++ [0x0A] ++ zeros 7 ++ [0x01], 32, 17) ∧
    causeAfter .callU8 (State.within (machine (zeros 49 ++ [0x20])) 64 1 0) = some .stackOverflow ∧
    causeAfter .callU8 (State.within (machine [0x00, 0x40]) 64 1 0) = some .invalidJumpTarget := by
  decide +kernel

/-- T433, T436, T437, T438 and T433 in the wider forms. -/
theorem test_ret :
    seen (exec .retU8 (State.within (machine (frame ++ [0x11, 0x22, 0x63])) 64 41 20)) =
      some ([0x77, 0x63], 10, 0) ∧
    seen (exec .retU16 (State.within (machine (frame ++ [0x11, 0x22, 0x63])) 64 41 20)) =
      some ([0x77, 0x22, 0x63], 10, 0) ∧
    seen (exec .retU32 (State.within (machine (frame ++ [0x11, 0x22, 0x63, 0x64])) 64 41 20)) =
      some ([0x77, 0x11, 0x22, 0x63, 0x64], 10, 0) ∧
    seen (exec .retU64 (State.within (machine (frame ++ [1, 2, 3, 4, 5, 6, 7, 8])) 64 41 20)) =
      some ([0x77, 1, 2, 3, 4, 5, 6, 7, 8], 10, 0) ∧
    causeAfter .retU8 (State.within (machine frame) 64 41 20) = some .stackUnderflow ∧
    seen (exec .retU8 (State.within (machine (zeros 7 ++ [0x03, 0xE8] ++ zeros 7 ++ [0x05, 0x63])) 64 41 17)) =
      some ([0x63], 1000, 5) := by
  decide +kernel

/-- T439, T441, T442 and T443 to T446. -/
theorem test_argc_and_arg :
    seen (exec .argc (State.within (machine frame) 64 33 20)) = some (frame ++ [0x02], 33, 20) ∧
    causeAfter .argc (State.within (machine (zeros 16)) 64 1 0) = some .stackUnderflow ∧
    seen (exec .arg (State.within (machine (frame ++ [0x00])) 64 33 20)) = some (frame ++ [0x0A], 33, 20) ∧
    seen (exec .arg (State.within (machine (frame ++ [0x02])) 64 33 20)) = some (frame ++ [0x77], 33, 20) ∧
    causeAfter .arg (State.within (machine (frame ++ [0x03])) 64 33 20) = some .stackUnderflow := by
  decide +kernel

/-- T449, T492 and the other widths, as whole steps: the immediate is read from the code and pc moves past it. -/
theorem test_push :
    seen (step { machine [0xAA] with code := [0x91, 0x2A] }) = some ([0xAA, 0x2A], 2, 0) ∧
    seen (step { machine [0xAA] with code := [0x92, 0x01, 0x2C] }) = some ([0xAA, 0x01, 0x2C], 3, 0) ∧
    seen (step { machine [] with code := [0x93, 0xDE, 0xAD, 0xBE, 0xEF] }) =
      some ([0xDE, 0xAD, 0xBE, 0xEF], 5, 0) ∧
    seen (step { machine [] with code := [0x94, 1, 2, 3, 4, 5, 6, 7, 8] }) = some ([1, 2, 3, 4, 5, 6, 7, 8], 9, 0) ∧
    causeAfter (.pushU16 0x0102) (State.within (machine (zeros 64)) 3 1 0) = some .stackOverflow ∧
    causeAfter (.pushU16 0x0102) (State.within (machine []) 2 1 0) = some .codeOverrun := by
  decide +kernel

/-- T457 to T462: POP discards. -/
theorem test_pop :
    liveAfter .popU8 [1, 2, 3] = some [1, 2] ∧ liveAfter .popU16 [1, 2, 3] = some [1] ∧
    liveAfter .popU32 [1, 2, 3, 4, 5] = some [1] ∧ liveAfter .popU64 [1, 2, 3, 4, 5, 6, 7, 8, 9] = some [1] ∧
    causeAfter .popU8 (machine []) = some .stackUnderflow := by
  decide +kernel

/-- T463 to T465 in four widths: LOAD reads one byte. -/
theorem test_load :
    (after (exec .loadU8 (State.storing (machine [0x05]) [0x10, 0, 0, 0, 0, 0x2A])) (machine [])).live = [0x2A] ∧
    (after (exec .loadU16 (State.storing (machine [0x00, 0x05]) [0x10, 0, 0, 0, 0, 0x2A])) (machine [])).live =
      [0x2A] ∧
    (after (exec .loadU32 (State.storing (machine [0, 0, 0, 0x05]) [0x10, 0, 0, 0, 0, 0x2A])) (machine [])).live =
      [0x2A] ∧
    (after (exec .loadU64 (State.storing (machine (zeros 7 ++ [0x05])) [0x10, 0, 0, 0, 0, 0x2A])) (machine [])).live =
      [0x2A] ∧
    causeAfter .loadU8 (machine [0x10]) = some .outOfBounds ∧
    causeAfter .loadU16 (machine [0x01, 0x05]) = some .outOfBounds := by
  decide +kernel

/-- T472 in four widths: the address is on top, the value below it. -/
theorem test_store :
    (after (exec .storeU8 (machine [0x11, 0x2A, 0x05])) (machine [])).store = [(5, 0x2A)] ∧
    (after (exec .storeU16 (machine [0x11, 0x2A, 0x00, 0x05])) (machine [])).store = [(5, 0x2A)] ∧
    (after (exec .storeU32 (machine [0x11, 0x2A, 0x00, 0x00, 0x00, 0x05])) (machine [])).store = [(5, 0x2A)] ∧
    (after (exec .storeU64 (machine ([0x11, 0x2A] ++ zeros 7 ++ [0x05]))) (machine [])).store = [(5, 0x2A)] ∧
    liveAfter .storeU8 [0x11, 0x2A, 0x05] = some [0x11] ∧
    causeAfter .storeU8 (machine [0x2A, 0x10]) = some .outOfBounds := by
  decide +kernel

/-- T478: HALT keeps the stack. -/
theorem test_halt :
    (after (exec .halt (machine [1, 2, 3])) (machine [])).status = .halted ∧
    liveAfter .halt [1, 2, 3] = some [1, 2, 3] := by
  decide +kernel

/-- The stack of T481: number 9 and five arguments. -/
def syscallStack : List Byte :=
  [0xEE] ++ bytesOf (9 : Word) ++ bytesOf (0xA1 : Word) ++ bytesOf (0xA2 : Word) ++ bytesOf (0xA3 : Word) ++
    bytesOf (0xA4 : Word) ++ bytesOf (0xA5 : Word) ++ [0x05]

/-- T481, T482, T485: the request the host sees, its answer on the stack, and the faults. -/
theorem test_syscall :
    (let t := after (exec .syscall { machine syscallStack with answers := [(1, -1)] }) (machine [])
     t.live = [0xEE] ++ List.replicate 8 0xFF ∧ t.status = .running ∧
       t.requests = [⟨9, [0xA1, 0xA2, 0xA3, 0xA4, 0xA5]⟩]) ∧
    (after (exec .syscall (machine syscallStack)) (machine [])).status = .waitingHost ∧
    causeAfter .syscall (machine [0x06]) = some .invalidSyscallArity ∧
    causeAfter .syscall (machine [0, 0, 0, 0, 0, 0, 0, 1, 1]) = some .stackUnderflow := by
  decide +kernel

/-- T490, T491: fetching past the code; and a word placed by `withFetchWord` runs first (T478). -/
theorem test_fetch :
    (after (step (machine [])) (machine [])).cause = .codeOverrun ∧
    (after (step { machine [] with code := [0xAB], pc := 1 }) (machine [])).cause = .codeOverrun ∧
    (after (step { machine [] with code := [0x00] }) (machine [])).cause = .invalidOpcode ∧
    (after (step (State.reset.withFetchWord 8 0xAB)) (machine [])).status = .halted := by
  decide +kernel

/-! ### Witnesses: encoding -/

theorem witness_DecodeReadsBackEncode :
    OpMap.wellFormed defaultOpmap.reverse = true ∧ (Instr.pushU64 0xFFFFFFFFFFFFFFFF).wellFormed = true :=
  ⟨test_wellFormed_accepts_a_permuted_map, rfl⟩

/-- The bytes of a PUSH_u16, opcode 0x1B in the reversed map, and one byte more. -/
theorem witness_DecodedBytesAreTheEncoding :
    OpMap.wellFormed defaultOpmap.reverse = true ∧
    decode defaultOpmap.reverse [0x1B, 0x01, 0x2C, 0xFF] = .ok (.pushU16 0x012C, [0xFF]) := by
  refine ⟨test_wellFormed_accepts_a_permuted_map, ?_⟩
  decide +kernel

theorem witness_LengthIsSetByTheOpcode :
    OpMap.wellFormed defaultOpmap.reverse = true ∧
    (encode defaultOpmap.reverse (.pushU8 0)).head? = (encode defaultOpmap.reverse (.pushU8 0xFF)).head? ∧
    (∀ imm, Instr.syscall ≠ .pushU8 imm) ∧ (∀ imm, Instr.syscall ≠ .pushU16 imm) ∧
    (∀ imm, Instr.syscall ≠ .pushU32 imm) ∧ (∀ imm, Instr.syscall ≠ .pushU64 imm) := by
  refine ⟨test_wellFormed_accepts_a_permuted_map, by decide +kernel, ?_, ?_, ?_, ?_⟩ <;> intro imm h <;> cases h

theorem witness_BytesOutsideTheMapAreInvalid :
    OpMap.wellFormed defaultOpmap.reverse = true ∧ (0x00 : Byte) ∉ defaultOpmap.reverse ∧
    (0xAD : Byte) ∉ defaultOpmap.reverse := by
  refine ⟨test_wellFormed_accepts_a_permuted_map, ?_⟩
  decide +kernel

/-! ### Witnesses: bytes and stack -/

theorem witness_StackValuesAreBigEndian : ∀ w ∈ [8, 16, 32, 64], 0 < w / 8 ∧ w / 8 - 1 < w / 8 := by decide

/-- A stack of exactly the bytes of one value. -/
theorem witness_LiveStackSplits : ∀ w ∈ [8, 16, 32, 64], w / 8 ≤ (machine (zeros (w / 8))).sp.toNat := by decide +kernel

/-- Exactly the room for one value. -/
theorem witness_PushThenPopGivesTheValueBack :
    (∀ w ∈ [8, 16, 32, 64], (machine (zeros (64 - w / 8))).sp.toNat + w / 8 = 64) ∧
    (machine []).params.stackCap = 64 := by
  decide +kernel

/-- A full stack and an empty one. -/
theorem witness_ByteLoopsAreTheSingleCheck :
    (machine (zeros 64)).sp.toNat = (machine (zeros 64)).params.stackCap ∧ (machine []).sp.toNat = 0 ∧
    (machine []).params.stackCap < 2 ^ 64 := by
  decide +kernel

/-! ### Witnesses: operands of arithmetic, comparison and logic

For every width: one byte too few, and a full stack with the operands on top. -/

/-- A full stack: STACK_CAP is the number of its bytes. -/
def full (bs : List Byte) : State := { machine bs with params := ⟨bs.length, 16, .wrap, defaultOpmap⟩ }

/-- A full stack with two operands on top of one byte. -/
def pairOn {w : Nat} (a b : BitVec w) : State := full ([0xAA] ++ bytesOf a ++ bytesOf b)

/-- The hypotheses on a stack with two operands are met. -/
def PairMeets {w : Nat} (a b : BitVec w) : Prop :=
  (pairOn a b).live = [0xAA] ++ bytesOf a ++ bytesOf b ∧ (pairOn a b).sp.toNat = (pairOn a b).params.stackCap

/-- Every width has a stack one byte short of two operands, and one with two operands. -/
def PairWitness : Prop :=
  ∀ w ∈ [8, 16, 32, 64], (machine (zeros (2 * (w / 8) - 1))).sp.toNat < 2 * (w / 8) ∧
    PairMeets (BitVec.allOnes w) (1 : BitVec w)

theorem pairWitness : PairWitness := by
  unfold PairWitness PairMeets
  decide +kernel

theorem witness_IntegerAddsPromote : PairWitness := pairWitness

theorem witness_IntegerSubtractsPromote : PairWitness := pairWitness

theorem witness_IntegerMultipliesPromote : PairWitness := pairWitness

/-- A zero divisor, and the smallest divisor that is none. -/
def DivisorWitness : Prop :=
  ∀ w ∈ [8, 16, 32, 64], PairMeets (5 : BitVec w) 0 ∧ PairMeets (5 : BitVec w) 1 ∧ (1 : BitVec w) ≠ 0

theorem divisorWitness : DivisorWitness := by
  unfold DivisorWitness PairMeets
  decide +kernel

/-- -2^(W-1) / -1 under both values of SDIV_OVF, and the two pairs next to it. -/
def OverflowWitness : Prop :=
  ∀ w ∈ [8, 16, 32, 64],
    PairMeets (BitVec.intMin w) (BitVec.allOnes w) ∧ OverflowPair (BitVec.intMin w) (BitVec.allOnes w) ∧
    BitVec.allOnes w ≠ 0 ∧ (pairOn (BitVec.intMin w) (BitVec.allOnes w)).params.sdivOvf = .wrap ∧
    { pairOn (BitVec.intMin w) (BitVec.allOnes w) with params := ⟨64, 16, .fault, []⟩ }.live =
      [0xAA] ++ bytesOf (BitVec.intMin w) ++ bytesOf (BitVec.allOnes w) ∧
    ¬ OverflowPair (BitVec.intMin w + 1) (BitVec.allOnes w) ∧ ¬ OverflowPair (BitVec.intMin w) 1

theorem overflowWitness : OverflowWitness := by
  unfold OverflowWitness OverflowPair PairMeets
  decide +kernel

theorem witness_IntegerDivisionTruncates : PairWitness ∧ DivisorWitness ∧ OverflowWitness :=
  ⟨pairWitness, divisorWitness, overflowWitness⟩

theorem witness_IntegerRemainderTruncates : PairWitness ∧ DivisorWitness ∧ OverflowWitness :=
  ⟨pairWitness, divisorWitness, overflowWitness⟩

/-- Equal operands, and operands one apart either way: every relation holds of one of them and fails of another. -/
theorem witness_IntegerEqualityComparisons :
    PairWitness ∧ ∀ w ∈ [8, 16, 32, 64], PairMeets (5 : BitVec w) 5 ∧ PairMeets (5 : BitVec w) 4 ∧
      (5 : BitVec w) ≠ 4 := by
  refine ⟨pairWitness, ?_⟩
  unfold PairMeets
  decide +kernel

theorem witness_IntegerOrderComparisons :
    PairWitness ∧ ∀ w ∈ [8, 16, 32, 64],
      (PairMeets (5 : BitVec w) 5 ∧ ¬ (5 : BitVec w).toNat < (5 : BitVec w).toNat) ∧
      (PairMeets (5 : BitVec w) 4 ∧ ¬ (5 : BitVec w).toInt ≤ (4 : BitVec w).toInt) ∧
      (PairMeets (4 : BitVec w) 5 ∧ (4 : BitVec w).toNat < (5 : BitVec w).toNat) ∧
      (PairMeets (BitVec.allOnes w) 0 ∧ (BitVec.allOnes w).toInt < (0 : BitVec w).toInt ∧
        ¬ (BitVec.allOnes w).toNat < (0 : BitVec w).toNat) := by
  refine ⟨pairWitness, ?_⟩
  unfold PairMeets
  decide +kernel

theorem witness_LogicalInstructionsWorkOnTruth :
    PairWitness ∧ (machine []).sp.toNat < 8 / 8 ∧
    (full ([0xAA] ++ bytesOf (0x80 : Byte))).live = [0xAA] ++ bytesOf (0x80 : Byte) ∧
    (full ([0xAA] ++ bytesOf (0x80 : Byte))).sp.toNat = (full ([0xAA] ++ bytesOf (0x80 : Byte))).params.stackCap := by
  refine ⟨pairWitness, ?_⟩
  decide +kernel

/-- A full stack with one operand on top, and one byte too few. -/
theorem witness_BitwiseInstructionsWorkBitByBit :
    PairWitness ∧ ∀ w ∈ [8, 16, 32, 64],
      (machine (zeros (w / 8 - 1))).sp.toNat < w / 8 ∧
      (full ([0xAA] ++ bytesOf (1 : BitVec w))).live = [0xAA] ++ bytesOf (1 : BitVec w) ∧
      (full ([0xAA] ++ bytesOf (1 : BitVec w))).sp.toNat = (full ([0xAA] ++ bytesOf (1 : BitVec w))).params.stackCap := by
  refine ⟨pairWitness, ?_⟩
  decide +kernel

/-- Amounts one below the width and of the width. -/
theorem witness_ShiftsAreLogicalAndZeroPastTheWidth :
    ∀ w ∈ [8, 16, 32, 64],
      (machine (zeros (w / 8))).sp.toNat < w / 8 + 1 ∧
      ∀ n ∈ [BitVec.ofNat 8 (w - 1), BitVec.ofNat 8 w],
        let s := full ([0xAA] ++ bytesOf (1 : BitVec w) ++ [n])
        s.live = [0xAA] ++ bytesOf (1 : BitVec w) ++ [n] ∧ s.sp.toNat = s.params.stackCap := by
  decide +kernel

/-! ### Witnesses: floating point -/

/-- 1 + 2 is a number, +∞ + -∞ none; the stacks hold them. -/
theorem witness_FloatArithmeticCompletes :
    PairWitness ∧ PairMeets (0x3F800000 : BitVec 32) 0x40000000 ∧
    onNats binary32 addVal 0x3F800000 0x40000000 = some 0x40400000 ∧
    PairMeets (0x7F800000 : BitVec 32) 0xFF800000 ∧ onNats binary32 addVal 0x7F800000 0xFF800000 = none ∧
    PairMeets (0x3FF0000000000000 : BitVec 64) 0x4000000000000000 ∧
    onNats binary64 divVal 0x3FF0000000000000 0x4000000000000000 = some 0x3FE0000000000000 ∧
    PairMeets (0 : BitVec 64) 0 ∧ onNats binary64 divVal 0 0 = none := by
  refine ⟨pairWitness, ?_⟩
  unfold PairMeets
  decide +kernel

/-- The bound from which a result is infinite. -/
def overflowBound (fmt : FloatFormat) : ℚ := (2 - 2 ^ (-(fmt.fracBits : Int) - 1)) * 2 ^ bias fmt

/-- The greatest finite binary32 plus just under half a unit is finite, plus half a unit infinite; an infinity on
either side; two infinities that cancel. -/
theorem witness_FloatAdditionIsIeee :
    Pattern binary32 0x7F7FFFFF ∧ Pattern binary32 0x72FFFFFF ∧ Pattern binary32 0x73000000 ∧
    IsFinite binary32 0x7F7FFFFF ∧ IsFinite binary32 0x72FFFFFF ∧ IsFinite binary32 0x73000000 ∧
    onNats binary32 addVal 0x7F7FFFFF 0x72FFFFFF = some 0x7F7FFFFF ∧
    |ratOf binary32 0x7F7FFFFF + ratOf binary32 0x72FFFFFF| < overflowBound binary32 ∧
    onNats binary32 addVal 0x7F7FFFFF 0x73000000 = some 0x7F800000 ∧
    overflowBound binary32 ≤ |ratOf binary32 0x7F7FFFFF + ratOf binary32 0x73000000| ∧
    IsInf binary32 0xFF800000 ∧ onNats binary32 addVal 0xFF800000 0x7F7FFFFF = some 0xFF800000 ∧
    onNats binary32 addVal 0x7F7FFFFF 0xFF800000 = some 0xFF800000 ∧
    Pattern binary32 0xFF800000 ∧ Pattern binary32 0x7F800000 ∧ onNats binary32 addVal 0x7F800000 0xFF800000 = none ∧
    Pattern binary64 0xFFFFFFFFFFFFFFFF ∧ IsNan binary64 0xFFFFFFFFFFFFFFFF := by
  unfold Pattern IsFinite IsInf IsNan overflowBound
  decide +kernel

theorem witness_FloatSubtractionIsIeee :
    Pattern binary32 0x7F7FFFFF ∧ Pattern binary32 0xF2FFFFFF ∧ Pattern binary32 0xF3000000 ∧
    IsFinite binary32 0x7F7FFFFF ∧ IsFinite binary32 0xF2FFFFFF ∧ IsFinite binary32 0xF3000000 ∧
    onNats binary32 subVal 0x7F7FFFFF 0xF2FFFFFF = some 0x7F7FFFFF ∧
    |ratOf binary32 0x7F7FFFFF - ratOf binary32 0xF2FFFFFF| < overflowBound binary32 ∧
    onNats binary32 subVal 0x7F7FFFFF 0xF3000000 = some 0x7F800000 ∧
    overflowBound binary32 ≤ |ratOf binary32 0x7F7FFFFF - ratOf binary32 0xF3000000| ∧
    IsInf binary32 0xFF800000 ∧ onNats binary32 subVal 0xFF800000 0x7F7FFFFF = some 0xFF800000 ∧
    onNats binary32 subVal 0x7F7FFFFF 0xFF800000 = some 0x7F800000 ∧
    Pattern binary32 0xFF800000 ∧ Pattern binary32 0x7F800000 ∧ onNats binary32 subVal 0x7F800000 0x7F800000 = none ∧
    Pattern binary64 0x7FF0000000000001 ∧ IsNan binary64 0x7FF0000000000001 := by
  unfold Pattern IsFinite IsInf IsNan overflowBound
  decide +kernel

/-- The smallest subnormal halved is a tie that goes to zero; the greatest number doubled overflows. -/
theorem witness_FloatMultiplicationIsIeee :
    Pattern binary32 0x80000001 ∧ Pattern binary32 0x3F000000 ∧ Pattern binary32 0x7F7FFFFF ∧
    Pattern binary32 0x40000000 ∧ IsFinite binary32 0x80000001 ∧ IsFinite binary32 0x3F000000 ∧
    onNats binary32 mulVal 0x80000001 0x3F000000 = some 0x80000000 ∧
    |ratOf binary32 0x80000001 * ratOf binary32 0x3F000000| < overflowBound binary32 ∧
    IsFinite binary32 0x7F7FFFFF ∧ IsFinite binary32 0x40000000 ∧
    onNats binary32 mulVal 0x7F7FFFFF 0x40000000 = some 0x7F800000 ∧
    overflowBound binary32 ≤ |ratOf binary32 0x7F7FFFFF * ratOf binary32 0x40000000| ∧
    Pattern binary32 0xFF800000 ∧ IsInf binary32 0xFF800000 ∧
    onNats binary32 mulVal 0xFF800000 0x40000000 = some 0xFF800000 ∧
    IsZero binary32 0x80000000 ∧ onNats binary32 mulVal 0x80000000 0xFF800000 = none ∧
    Pattern binary64 0x7FF0000000000001 ∧ IsNan binary64 0x7FF0000000000001 := by
  unfold Pattern IsFinite IsInf IsNan IsZero overflowBound
  decide +kernel

theorem witness_FloatDivisionIsIeee :
    Pattern binary32 0x80000001 ∧ Pattern binary32 0x40000000 ∧ Pattern binary32 0x7F7FFFFF ∧
    Pattern binary32 0x3F000000 ∧ IsFinite binary32 0x80000001 ∧ IsFinite binary32 0x40000000 ∧
    ¬ IsZero binary32 0x40000000 ∧ onNats binary32 divVal 0x80000001 0x40000000 = some 0x80000000 ∧
    |ratOf binary32 0x80000001 / ratOf binary32 0x40000000| < overflowBound binary32 ∧
    IsFinite binary32 0x7F7FFFFF ∧ IsFinite binary32 0x3F000000 ∧ ¬ IsZero binary32 0x3F000000 ∧
    onNats binary32 divVal 0x7F7FFFFF 0x3F000000 = some 0x7F800000 ∧
    overflowBound binary32 ≤ |ratOf binary32 0x7F7FFFFF / ratOf binary32 0x3F000000| ∧
    Pattern binary32 0xFF800000 ∧ IsInf binary32 0xFF800000 ∧
    onNats binary32 divVal 0x40000000 0xFF800000 = some 0x80000000 ∧
    IsZero binary32 0x80000000 ∧ onNats binary32 divVal 0x40000000 0x80000000 = some 0xFF800000 ∧
    onNats binary32 divVal 0x80000000 0x80000000 = none ∧
    Pattern binary64 0x7FF0000000000001 ∧ IsNan binary64 0x7FF0000000000001 := by
  unfold Pattern IsFinite IsInf IsNan IsZero overflowBound
  decide +kernel

/-- The zeros are one value, a NaN is not even itself, 0 is below 1, -∞ below 0 and 1 below +∞: each relation holds
and fails. -/
theorem witness_FloatComparisonsAreIeee :
    PairWitness ∧
    (PairMeets (0x80000000 : BitVec 32) 0 ∧ SameValue binary32 0x80000000 0) ∧
    (PairMeets (0x7FC00000 : BitVec 32) 0x7FC00000 ∧ ¬ SameValue binary32 0x7FC00000 0x7FC00000 ∧
      ¬ Below binary32 0x7FC00000 0x7FC00000) ∧
    (PairMeets (0 : BitVec 32) 0x3F800000 ∧ Below binary32 0 0x3F800000) ∧
    (PairMeets (0xFF800000 : BitVec 32) 0 ∧ Below binary32 0xFF800000 0) ∧
    (PairMeets (0x3FF0000000000000 : BitVec 64) 0x7FF0000000000000 ∧
      Below binary64 0x3FF0000000000000 0x7FF0000000000000) := by
  refine ⟨pairWitness, ⟨?_, .inl ?_⟩, ⟨?_, ?_, ?_⟩, ⟨?_, ?_, ?_, .inl ?_⟩, ⟨?_, ?_, ?_, .inr (.inl ?_)⟩,
    ?_, ?_, ?_, .inr (.inr ?_)⟩
  case refine_4 => rintro (⟨h, -⟩ | ⟨⟨-, h⟩, -⟩) <;> revert h <;> (try unfold IsFinite) <;> decide +kernel
  case refine_5 =>
    rintro ⟨h, -⟩
    revert h
    unfold IsNan
    decide +kernel
  all_goals
    try unfold PairMeets
    try unfold IsNan
    try unfold IsFinite
    try unfold IsInf
    try unfold signSet
    decide +kernel

/-! ### Witnesses: control flow -/

/-- A target at the end of the code, and the last one inside it. -/
theorem witness_JumpGoesToACheckedTarget :
    ∀ w ∈ [8, 16, 32, 64],
      (machine (zeros (w / 8 - 1))).sp.toNat < w / 8 ∧
      ∀ n ∈ [63, 64],
        let t := BitVec.ofNat w n
        let s := State.within (machine ([0xAA] ++ bytesOf t)) 64 1 0
        s.live = [0xAA] ++ bytesOf t ∧ (s.codeLen ≤ t.toNat ↔ n = 64) ∧ (t.toNat < s.codeLen ↔ n = 63) := by
  decide +kernel

theorem witness_ConditionalJumpTestsTheByteBelow :
    ∀ w ∈ [8, 16, 32, 64],
      (machine (zeros (w / 8))).sp.toNat < w / 8 + 1 ∧
      ∀ k ∈ [0, 1], ∀ n ∈ [63, 64],
        let c : Byte := BitVec.ofNat 8 k
        let t := BitVec.ofNat w n
        let s := State.within (machine ([0xAA] ++ [c] ++ bytesOf t)) 64 1 0
        s.live = [0xAA] ++ [c] ++ bytesOf t ∧ (c = 0 ↔ k = 0) ∧
          (s.codeLen ≤ t.toNat ↔ n = 64) ∧ (t.toNat < s.codeLen ↔ n = 63) := by
  decide +kernel

/-- Room for the frame and one byte less than that; a target at the end of the code and the last inside it. -/
theorem witness_CallLaysDownTheFrame :
    ∀ w ∈ [8, 16, 32, 64],
      (machine (zeros (w / 8 - 1))).sp.toNat < w / 8 ∧
      ∀ cap ∈ [16, 17], ∀ n ∈ [63, 64],
        let t := BitVec.ofNat w n
        let s := { State.within (machine ([0xAA] ++ bytesOf t)) 64 1 0 with params := ⟨cap, 16, .wrap, []⟩ }
        s.live = [0xAA] ++ bytesOf t ∧ s.params.stackCap < 2 ^ 64 ∧
          ([(0xAA : Byte)].length + 16 ≤ s.params.stackCap ↔ cap = 17) ∧
          (s.params.stackCap < [(0xAA : Byte)].length + 16 ↔ cap = 16) ∧
          (s.codeLen ≤ t.toNat ↔ n = 64) ∧ (t.toNat < s.codeLen ↔ n = 63) := by
  decide +kernel

/-- Each check at its boundary, and a frame with two arguments, a prefix and a local; a frame with no argument. -/
theorem witness_ReturnUndoesTheFrame :
    ∀ w ∈ [8, 16, 32, 64],
      (machine (zeros (w / 8 - 1))).sp.toNat < w / 8 ∧
      (let s := State.within (machine (zeros (w / 8))) 64 1 1
       w / 8 ≤ s.sp.toNat ∧ s.sp.toNat - w / 8 < s.fp.toNat) ∧
      (State.within (machine (zeros 32)) 64 1 16).fp.toNat < 17 ∧
      (let s := State.within (machine ([0x01] ++ zeros 31)) 64 1 17
       17 ≤ s.fp.toNat ∧ s.fp.toNat - 17 < (s.stackByte (s.fp.toNat - 17)).toNat) ∧
      (let s := State.within
        (machine ([0x77] ++ [0x14, 0x0A] ++ [0x02] ++ bytesOf (10 : Word) ++ bytesOf (0 : Word) ++ [0x11] ++
          bytesOf (5 : BitVec w))) 64 1 20
       s.live = [0x77] ++ [0x14, 0x0A] ++ [0x02] ++ bytesOf (10 : Word) ++ bytesOf (0 : Word) ++ [0x11] ++
          bytesOf (5 : BitVec w) ∧
        [(0x14 : Byte), 0x0A].length = (0x02 : Byte).toNat ∧
        s.fp.toNat = [(0x77 : Byte)].length + [(0x14 : Byte), 0x0A].length + 17 ∧
        s.sp.toNat ≤ s.params.stackCap) ∧
      (let s := State.within
        (machine ([] ++ [] ++ [0x00] ++ bytesOf (10 : Word) ++ bytesOf (0 : Word) ++ [] ++ bytesOf (5 : BitVec w))) 64 1 17
       s.live = [] ++ [] ++ [0x00] ++ bytesOf (10 : Word) ++ bytesOf (0 : Word) ++ [] ++ bytesOf (5 : BitVec w) ∧
        s.fp.toNat = 17 ∧ s.sp.toNat ≤ s.params.stackCap) := by
  decide +kernel

/-- The stack that a call at address 9 leaves: a byte of the caller, one argument and its count, the frame. -/
def calledStack : List Byte := [0xEE] ++ [0x0A] ++ [0x01] ++ bytesOf (10 : Word) ++ bytesOf (0 : Word)

/-- A caller with one argument byte, for every width of the target; and its callee, with one local byte and a value of
every width, on entry of the return. -/
theorem witness_CallThenReturnNetEffect :
    (∀ w ∈ [8, 16, 32, 64],
      let s := State.within (machine ([0xEE] ++ [0x0A] ++ [0x01] ++ bytesOf (BitVec.ofNat w 63))) 64 10 0
      s.live = [0xEE] ++ [0x0A] ++ [0x01] ++ bytesOf (BitVec.ofNat w 63) ∧
      [(0x0A : Byte)].length = (0x01 : Byte).toNat ∧
      [(0xEE : Byte)].length + [(0x0A : Byte)].length + 17 ≤ s.params.stackCap ∧ s.params.stackCap < 2 ^ 64 ∧
      (BitVec.ofNat w 63).toNat < s.codeLen ∧
      seen (exec ([Instr.callU8, .callU16, .callU32, .callU64].getD (Nat.log2 (w / 8)) .halt) s) =
        some (calledStack, 63, 19)) ∧
    ∀ r ∈ [8, 16, 32, 64],
      let u := State.within (machine (calledStack ++ [0x11] ++ bytesOf (5 : BitVec r))) 64 50 19
      u.fp = 19 ∧ u.live = calledStack ++ [0x11] ++ bytesOf (5 : BitVec r) ∧ u.sp.toNat ≤ u.params.stackCap := by
  decide +kernel

theorem witness_ArgcReadsTheCountInTheFrame :
    (State.within (machine (zeros 32)) 64 1 16).fp.toNat < 17 ∧
    (let s := State.within (machine (zeros 3)) 64 1 20
     s.sp.toNat + 17 ≤ s.fp.toNat) ∧
    (let s := State.within (machine (zeros 64)) 64 1 17
     17 ≤ s.fp.toNat ∧ s.fp.toNat < s.sp.toNat + 17 ∧ s.params.stackCap ≤ s.sp.toNat) ∧
    (let s := State.within (machine (zeros 63)) 64 1 79
     17 ≤ s.fp.toNat ∧ s.fp.toNat < s.sp.toNat + 17 ∧ s.sp.toNat < s.params.stackCap ∧
       s.params.stackCap < 2 ^ 64) := by
  decide +kernel

theorem witness_ArgReadsAnArgumentByte :
    (machine []).sp.toNat < 1 ∧
    (let s := State.within (machine (zeros 3 ++ [0x02])) 64 1 19
     s.live = zeros 3 ++ [0x02] ∧ s.fp.toNat < 18 + (0x02 : Byte).toNat) ∧
    (let s := State.within (machine (zeros 2 ++ [0x00])) 64 1 20
     s.live = zeros 2 ++ [0x00] ∧ (zeros 2).length + 18 + (0x00 : Byte).toNat ≤ s.fp.toNat) ∧
    (∀ n ∈ [20, 22],
      let s := State.within (full (zeros 3 ++ [0x02])) 64 1 (BitVec.ofNat 64 n)
      s.live = zeros 3 ++ [0x02] ∧ 18 + (0x02 : Byte).toNat ≤ s.fp.toNat ∧
        s.fp.toNat < (zeros 3).length + 18 + (0x02 : Byte).toNat ∧ s.sp.toNat = s.params.stackCap) := by
  decide +kernel

/-! ### Witnesses: stack and store -/

/-- The code ends inside the immediate or just after it; the stack has one byte too few or just the room. -/
theorem witness_PushCompletesWithItsImmediate :
    ∀ w ∈ [8, 16, 32, 64],
      (let s := State.within (machine []) (w / 8) 1 0
       s.codeLen < s.pc.toNat + w / 8) ∧
      (let s := State.within (machine (zeros (65 - w / 8))) (w / 8 + 1) 1 0
       s.pc.toNat + w / 8 ≤ s.codeLen ∧ s.params.stackCap < s.sp.toNat + w / 8) ∧
      (let s := State.within (machine (zeros (64 - w / 8))) (w / 8 + 1) 1 0
       s.pc.toNat + w / 8 ≤ s.codeLen ∧ s.codeLen < 2 ^ 64 ∧ s.sp.toNat + w / 8 ≤ s.params.stackCap ∧
         s.params.stackCap < 2 ^ 64) := by
  decide +kernel

theorem witness_PushStepCopiesCodeBytes :
    ∀ p ∈ [(1, (0x91 : Byte)), (2, 0x92), (4, 0x93), (8, 0x94)], ∀ n ∈ [p.1 - 1, p.1], ∀ k ∈ [64 - p.1, 65 - p.1],
      let s := { machine (zeros k) with code := p.2 :: zeros n }
      s.status = .running ∧ s.commands = [] ∧ s.params.opmap = defaultOpmap ∧ s.codeLen < 2 ^ 64 ∧
        s.params.stackCap < 2 ^ 64 ∧ s.code.drop s.pc.toNat = p.2 :: zeros n ∧
        ((zeros n).length < p.1 ↔ n = p.1 - 1) ∧ (p.1 ≤ (zeros n).length ↔ n = p.1) ∧
        (s.params.stackCap < s.sp.toNat + p.1 ↔ k = 65 - p.1) ∧ (s.sp.toNat + p.1 ≤ s.params.stackCap ↔ k = 64 - p.1) := by
  decide +kernel

theorem witness_PopDiscardsBytesUnread :
    ∀ n ∈ [1, 2, 4, 8], (machine (zeros (n - 1))).sp.toNat < n ∧ n ≤ (machine (zeros n)).sp.toNat := by
  decide +kernel

/-- Addresses one below STORE_CAP and at it. -/
theorem witness_LoadReadsOneStoreByte :
    ∀ w ∈ [8, 16, 32, 64],
      (machine (zeros (w / 8 - 1))).sp.toNat < w / 8 ∧
      ∀ n ∈ [15, 16],
        let a := BitVec.ofNat w n
        let s := full ([0xAA] ++ bytesOf a)
        s.live = [0xAA] ++ bytesOf a ∧ (s.params.storeCap ≤ a.toNat ↔ n = 16) ∧
          (a.toNat < s.params.storeCap ↔ n = 15) ∧ s.sp.toNat = s.params.stackCap := by
  decide +kernel

theorem witness_StoreWritesOneStoreByte :
    ∀ w ∈ [8, 16, 32, 64],
      (machine (zeros (w / 8))).sp.toNat < w / 8 + 1 ∧
      ∀ n ∈ [15, 16],
        let a := BitVec.ofNat w n
        let s := machine ([0xAA] ++ [0x2A] ++ bytesOf a)
        s.live = [0xAA] ++ [0x2A] ++ bytesOf a ∧ (s.params.storeCap ≤ a.toNat ↔ n = 16) ∧
          (a.toNat < s.params.storeCap ↔ n = 15) := by
  decide +kernel

/-! ### Witnesses: system and steps -/

theorem witness_HaltEndsTheRun :
    let s := { machine [] with code := [0xAB, 0x01] }
    s.status = .running ∧ s.commands = [] ∧ s.params.opmap = defaultOpmap ∧
      s.code.drop s.pc.toNat = 0xAB :: [0x01] := by
  decide +kernel

/-- Arities 5 and 6, operands one byte short, and requests with no argument and with five, answered and not. -/
theorem witness_SyscallPresentsItsRequest :
    (machine []).sp.toNat < 1 ∧
    ((machine ([] ++ [0x06])).live = [] ++ [0x06] ∧ 5 < (0x06 : Byte).toNat) ∧
    ((machine (zeros 47 ++ [0x05])).live = zeros 47 ++ [0x05] ∧ (0x05 : Byte).toNat ≤ 5 ∧
      (zeros 47).length < 8 * (0x05 : Byte).toNat + 8) ∧
    ∀ args ∈ [([] : List Word), [0xA1, 0xA2, 0xA3, 0xA4, 0xA5]], ∀ answers ∈ [([] : List (Nat × Word)), [(1, 7)]],
      let bs := [0xEE] ++ bytesOf (9 : Word) ++ args.flatMap bytesOf ++ [BitVec.ofNat 8 args.length]
      let s := { machine bs with answers := answers }
      s.live = bs ∧ args.length ≤ 5 ∧ s.sp.toNat ≤ s.params.stackCap ∧
        (s.answers.lookup (s.requests.length + 1) = none ↔ answers = []) ∧
        (s.answers.lookup (s.requests.length + 1) = some 7 ↔ answers = [(1, 7)]) := by
  decide +kernel

/-- A machine that has presented one request, with just the room for the answer. -/
def waiting (answers : List (Nat × Word)) : State :=
  { machine (zeros 56) with
    params := ⟨64, 16, .wrap, defaultOpmap.reverse⟩
    status := .waitingHost
    request := some ⟨9, []⟩
    requests := [⟨9, []⟩]
    answers := answers }

theorem witness_WaitingMachineTakesTheAnswer :
    (waiting []).status = .waitingHost ∧ (waiting []).commands = [] ∧
    (waiting []).answers.lookup (waiting []).requests.length = none ∧
    (waiting [(1, 7)]).status = .waitingHost ∧ (waiting [(1, 7)]).commands = [] ∧
    (waiting [(1, 7)]).answers.lookup (waiting [(1, 7)]).requests.length = some 7 ∧
    (waiting [(1, 7)]).sp.toNat + 8 = (waiting [(1, 7)]).params.stackCap ∧ (waiting [(1, 7)]).params.stackCap < 2 ^ 64 := by
  decide +kernel

theorem witness_StepRunsTheDecodedInstruction :
    let s := { machine [] with code := [0x92, 0x01, 0x2C] }
    s.status = .running ∧ s.commands = [] ∧
      decode s.params.opmap (s.code.drop s.pc.toNat) = .ok (.pushU16 0x012C, []) := by
  decide +kernel

theorem witness_FetchFaults :
    ((machine []).status = .running ∧ (machine []).commands = [] ∧ (machine []).codeLen ≤ (machine []).pc.toNat) ∧
    let s := { machine [] with code := [0xAD, 0x01], params := ⟨64, 16, .wrap, defaultOpmap.reverse⟩ }
    s.status = .running ∧ s.commands = [] ∧ OpMap.wellFormed s.params.opmap = true ∧
      s.code.drop s.pc.toNat = 0xAD :: [0x01] ∧ (0xAD : Byte) ∉ s.params.opmap := by
  refine ⟨by decide +kernel, rfl, rfl, test_wellFormed_accepts_a_permuted_map, rfl, ?_⟩
  decide +kernel

theorem witness_StoppedMachineTakesNoStep :
    ∀ st ∈ [Status.idle, .halted, .faulted],
      ((machine []).setStatus st).commands = [] ∧ ((machine []).setStatus st).status = st := by
  decide

theorem witness_EveryInstructionTakesAStep : (machine []).status = .running ∧ (machine []).commands = [] := by decide

/-- A fault of ADD_u8 on an empty stack. -/
theorem witness_FaultCausesPerInstruction :
    ∃ t, (machine []).status ≠ .faulted ∧ (machine []).sp.toNat ≤ (machine []).params.stackCap ∧
      exec .addU8 (machine []) = .next t ∧ t.status = .faulted :=
  ⟨raise .stackUnderflow (machine []), by decide, by decide +kernel, rfl, rfl⟩

theorem witness_FaultKeepsStoreCodeAndParameters :
    ∃ t, (machine []).status ≠ .faulted ∧ exec .addU8 (machine []) = .next t ∧ t.status = .faulted :=
  ⟨raise .stackUnderflow (machine []), by decide, rfl, rfl⟩

/-- A faulted machine with one command: a reset, a reset of a size that no machine has, a run. -/
def faultedWith (c : Command) : State := { raise .divisionByZero (machine []) with commands := [c] }

theorem witness_FaultedIsLeftOnlyByReset :
    ∀ c ∈ [Command.reset (2 ^ 64 - 1) 0 [], .reset (2 ^ 64) 0 [], .run none 0],
      (faultedWith c).status = .faulted ∧ ∃ t, step (faultedWith c) = .next t := by
  intro c _
  exact ⟨rfl, _, rfl⟩

/-! ### Witnesses: invariants -/

/-- A running machine that meets the invariant: one byte on the stack, one in the store, HALT next, under the reversed
map. -/
def runningState : State :=
  { machine [0x05] with
    store := [(15, 0x2A)]
    code := [0x02]
    params := ⟨64, 16, .wrap, defaultOpmap.reverse⟩ }

/-- It halts at the next step. -/
theorem step_runningState : step runningState = .next { runningState with pc := 1, status := .halted } := by
  have h : fetch runningState = .ok (.halt, { runningState with pc := 1 }) := by decide +kernel
  simp only [step, h]
  rfl

theorem runningState_inv : StateInv runningState where
  stackWf := by decide
  storeWf := by decide
  stackBelow := by simp [runningState, machine, listed, Memory.below]
  storeBelow := by simp [runningState, machine, Memory.below]
  spLe := by decide
  written := by
    intro _ i hi
    have h : i < 1 := hi
    interval_cases i
    rfl
  waiting := by decide
  room := by decide
  outstanding := by intro r h; cases h
  causeNone := by decide
  noAllocation := by decide
  stackCapLt := by decide
  storeCapLt := by decide
  codeLenLt := by decide
  opmapWf := test_wellFormed_accepts_a_permuted_map
  stackDrawn := by decide
  storeDrawn := by decide

/-- The waiting machine meets the invariant. -/
theorem waiting_inv : StateInv (waiting [(1, 7)]) where
  stackWf := by decide +kernel
  storeWf := by decide
  stackBelow := by unfold Memory.below; decide +kernel
  storeBelow := by intro x h; cases h
  spLe := by decide +kernel
  written := by
    intro _ i hi
    have h : i < 56 := hi
    have key : ∀ j < 56, (Memory.read? (waiting [(1, 7)]).stack j).isSome := by decide +kernel
    exact key i h
  waiting := by decide
  room := by decide +kernel
  outstanding := by
    rintro r h
    cases h
    decide
  causeNone := by decide
  noAllocation := by decide
  stackCapLt := by decide
  storeCapLt := by decide
  codeLenLt := by decide
  opmapWf := test_wellFormed_accepts_a_permuted_map
  stackDrawn := by decide
  storeDrawn := by decide

/-- The invariant and a next step, for a running machine and for a waiting one. -/
theorem witness_InvariantKeptByEveryStep :
    (StateInv runningState ∧ ∃ t, step runningState = .next t) ∧
    (StateInv (waiting [(1, 7)]) ∧ ∃ t, step (waiting [(1, 7)]) = .next t) :=
  ⟨⟨runningState_inv, _, step_runningState⟩, waiting_inv, _, rfl⟩

theorem witness_StatusMovesOnlyAsStated :
    (StateInv runningState ∧ runningState.commands = [] ∧ ∃ t, step runningState = .next t) ∧
    (StateInv (waiting [(1, 7)]) ∧ (waiting [(1, 7)]).commands = [] ∧ ∃ t, step (waiting [(1, 7)]) = .next t) :=
  ⟨⟨runningState_inv, rfl, _, step_runningState⟩, waiting_inv, rfl, _, rfl⟩

/-- A jump to the last byte of the code from pc at its end. -/
theorem witness_PcStaysWithinCodeExceptAfterReturn :
    let s := State.within (machine [0x3F]) 64 64 0
    ¬ isReturn .jmpU8 ∧ s.pc.toNat ≤ s.codeLen ∧ ∃ t, exec .jmpU8 s = .next t ∧ t.status ≠ .faulted :=
  ⟨by unfold isReturn; decide, by decide +kernel, _, rfl, by decide +kernel⟩

theorem witness_OnlyCallAndReturnWriteFp :
    ¬ writesFp .notU8 ∧ ∃ t, exec .notU8 (machine [0x05]) = .next t ∧ t.status ≠ .faulted :=
  ⟨by unfold writesFp; decide, _, rfl, by decide +kernel⟩

/-- An instruction that is no STORE, and a STORE that faults. -/
theorem witness_OnlyStoreWritesTheStore :
    (¬ isStore .notU8 ∧ ∃ t, exec .notU8 (machine [0x05]) = .next t) ∧
    ∃ t, exec .storeU8 (machine []) = .next t ∧ (machine []).status ≠ .faulted ∧ t.status = .faulted :=
  ⟨⟨by unfold isStore; decide, _, rfl⟩, raise .stackUnderflow (machine []), rfl, by decide, rfl⟩

theorem witness_NoInstructionWritesCodeOrParameters :
    (∃ t, exec .notU8 (machine [0x05]) = .next t) ∧
    runningState.commands = [] ∧ ∃ t, step runningState = .next t :=
  ⟨⟨_, rfl⟩, rfl, _, step_runningState⟩

theorem witness_OnlySyscallReachesTheHost :
    Instr.notU8 ≠ .syscall ∧ (∃ t, exec .notU8 (machine [0x05]) = .next t) ∧
    ∃ t, exec .notU8 ((machine [0x05]).setStatus .waitingHost) = .next t ∧ t.status = .waitingHost :=
  ⟨by decide, ⟨_, rfl⟩, _, rfl, by decide +kernel⟩

/-- Two machines that differ in the byte at `sp`. -/
theorem witness_DeadStackBytesAreNotObservable :
    let s' := { runningState with stack := listed 0 [0x05, 0x02] }
    runningState ≠ s' ∧ SameButDeadStack runningState s' ∧ ∃ t, step runningState = .next t := by
  refine ⟨by decide, ⟨rfl, ?_⟩, _, step_runningState⟩
  intro k hk
  have h : k < 1 := hk
  interval_cases k
  rfl

/-! ### Witnesses: commands -/

/-- A reset with the greatest sizes, taken while a request waits. -/
theorem witness_ResetCommandStartsANewLife :
    { waiting [] with commands := [.reset (2 ^ 64 - 1) 0 [0xAB]] }.commands =
      .reset (2 ^ 64 - 1) 0 [0xAB] :: ([] : List Command) ∧
    2 ^ 64 - 1 < 2 ^ 64 ∧ 0 < 2 ^ 64 ∧ [(0xAB : Byte)].length < 2 ^ 64 := by
  refine ⟨rfl, ?_⟩
  decide

/-- A run with new code and one without, in every status. -/
theorem witness_RunCommandStartsARun :
    ∀ st ∈ [Status.idle, .halted, .running, .waitingHost, .faulted], ∀ code ∈ [none, some [(0xAB : Byte)]],
      let s := { (machine []).setStatus st with commands := [.run code (-1)] }
      s.commands = .run code (-1) :: [] ∧ s.status = st ∧ (code.getD []).length < 2 ^ 64 := by
  decide

end Sys2Proof.Tests
end

section
/-! SUPPORT. What an instruction and a step can answer, in the form the statements about state ask for: each
instruction is `finish` of a body of one of 22 shapes, and a step is a command taken, a fetch and its
instruction, or the host's answer taken. -/

namespace Sys2Proof.Machine

/-! ### What may be raised -/

/-- A cause that a fault may have: not None, and not the reserved one (60_exceptions.md R421, R432). -/
def Cause.raisable (c : Cause) : Prop := c ≠ .none ∧ c ≠ .allocationFailure

theorem Cause.raisable_of_mem {c : Cause} (h : c ∈ [Cause.stackOverflow, .stackUnderflow, .outOfBounds,
    .invalidJumpTarget, .divisionByZero, .invalidSyscallArity, .invalidOpcode, .codeOverrun]) : c.raisable := by
  constructor <;> rintro rfl <;> simp at h

/-! ### The shapes of instruction -/

/-- The bodies of the 172 instructions. A width is bounded where the result has to fit in what the operands left
free. -/
inductive Shape : (State → Except Cause State) → Prop where
  | binary {w r : Nat} (f : BitVec w → BitVec w → BitVec r) (hr : r / 8 ≤ 2 * (w / 8)) : Shape (binary w f)
  | compare {w : Nat} (rel : BitVec w → BitVec w → Bool) (hw : 8 ≤ w) : Shape (compare w rel)
  | unary {w r : Nat} (f : BitVec w → BitVec r) (hr : r / 8 ≤ w / 8) : Shape (unary w f)
  | shift {w : Nat} (f : BitVec w → Byte → BitVec w) : Shape (shift w f)
  | divideU {w : Nat} (f : BitVec w → BitVec w → BitVec w) : Shape (divideU w f)
  | divideS {w : Nat} (f : BitVec w → BitVec w → BitVec w) : Shape (divideS w f)
  | arithF32 (op : FloatOp) : Shape (arithF32 op)
  | arithF64 (op : FloatOp) : Shape (arithF64 op)
  | compareF32 (rel : BitVec 32 → BitVec 32 → Bool) : Shape (compareF32 rel)
  | compareF64 (rel : BitVec 64 → BitVec 64 → Bool) : Shape (compareF64 rel)
  | jump (w : Nat) : Shape (jump w)
  | jumpIf (w : Nat) : Shape (jumpIf w)
  | call (w : Nat) : Shape (call w)
  | ret {w : Nat} (hw : w ≤ 64) : Shape (ret w)
  | argCount : Shape argCount
  | argByte : Shape argByte
  | pushImm {w : Nat} (imm : BitVec w) : Shape (pushImm imm)
  | dropBytes (n : Nat) : Shape (dropBytes n)
  | load {w : Nat} (hw : 8 ≤ w) : Shape (load w)
  | storeByteAt (w : Nat) : Shape (storeByteAt w)
  | halt : Shape fun s => .ok (s.setStatus .halted)
  | syscall : Shape syscall

/-- Every instruction is `finish` of a body of one shape: both are read off the definition of its meaning. -/
theorem exec_shape (i : Instr) : ∃ body, Shape body ∧ ∀ s, exec i s = finish s (body s) := by
  cases i with
  | addU8 | addI8 | addU16 | addI16 | addU32 | addI32 | addU64 | addI64 | subU8 | subI8 | subU16 | subI16
  | subU32 | subI32 | subU64 | subI64 | mulU8 | mulI8 | mulU16 | mulI16 | mulU32 | mulI32 | mulU64 | mulI64
  | logicalAnd | logicalOr | logicalXor | andU8 | andU16 | andU32 | andU64 | orU8 | orU16 | orU32 | orU64
  | xorU8 | xorU16 | xorU32 | xorU64 => exact ⟨_, .binary _ (by decide), fun _ => rfl⟩
  | addF | subF | mulF | divF => exact ⟨_, .arithF32 _, fun _ => rfl⟩
  | addD | subD | mulD | divD => exact ⟨_, .arithF64 _, fun _ => rfl⟩
  | divU8 | divU16 | divU32 | divU64 | modU8 | modU16 | modU32 | modU64 => exact ⟨_, .divideU _, fun _ => rfl⟩
  | divI8 | divI16 | divI32 | divI64 | modI8 | modI16 | modI32 | modI64 => exact ⟨_, .divideS _, fun _ => rfl⟩
  | eqU8 | eqI8 | eqU16 | eqI16 | eqU32 | eqI32 | eqU64 | eqI64 | neqU8 | neqI8 | neqU16 | neqI16 | neqU32
  | neqI32 | neqU64 | neqI64 | ltU8 | ltI8 | ltU16 | ltI16 | ltU32 | ltI32 | ltU64 | ltI64 | lteqU8 | lteqI8
  | lteqU16 | lteqI16 | lteqU32 | lteqI32 | lteqU64 | lteqI64 | gtU8 | gtI8 | gtU16 | gtI16 | gtU32 | gtI32
  | gtU64 | gtI64 | gteqU8 | gteqI8 | gteqU16 | gteqI16 | gteqU32 | gteqI32 | gteqU64 | gteqI64 =>
    exact ⟨_, .compare _ (by decide), fun _ => rfl⟩
  | eqF | neqF | ltF | lteqF | gtF | gteqF => exact ⟨_, .compareF32 _, fun _ => rfl⟩
  | eqD | neqD | ltD | lteqD | gtD | gteqD => exact ⟨_, .compareF64 _, fun _ => rfl⟩
  | logicalNot | notU8 | notU16 | notU32 | notU64 => exact ⟨_, .unary _ (by decide), fun _ => rfl⟩
  | lshftU8 | lshftU16 | lshftU32 | lshftU64 | rshftU8 | rshftU16 | rshftU32 | rshftU64 =>
    exact ⟨_, .shift _, fun _ => rfl⟩
  | jmpU8 | jmpU16 | jmpU32 | jmpU64 => exact ⟨_, .jump _, fun _ => rfl⟩
  | jmpifU8 | jmpifU16 | jmpifU32 | jmpifU64 => exact ⟨_, .jumpIf _, fun _ => rfl⟩
  | pushU8 | pushU16 | pushU32 | pushU64 => exact ⟨_, .pushImm _, fun _ => rfl⟩
  | popU8 | popU16 | popU32 | popU64 => exact ⟨_, .dropBytes _, fun _ => rfl⟩
  | loadU8 | loadU16 | loadU32 | loadU64 => exact ⟨_, .load (by decide), fun _ => rfl⟩
  | storeU8 | storeU16 | storeU32 | storeU64 => exact ⟨_, .storeByteAt _, fun _ => rfl⟩
  | callU8 | callU16 | callU32 | callU64 => exact ⟨_, .call _, fun _ => rfl⟩
  | retU8 | retU16 | retU32 | retU64 => exact ⟨_, .ret (by decide), fun _ => rfl⟩
  | argc => exact ⟨_, .argCount, fun _ => rfl⟩
  | arg => exact ⟨_, .argByte, fun _ => rfl⟩
  | halt => exact ⟨_, .halt, fun _ => rfl⟩
  | syscall => exact ⟨_, .syscall, fun _ => rfl⟩

/-- Whatever a body raises may be raised. -/
theorem Shape.error_raisable {body : State → Except Cause State} (hb : Shape body) {s : State} {c : Cause}
    (hs : s.sp.toNat ≤ s.params.stackCap) (h : body s = .error c) : c.raisable := by
  apply Cause.raisable_of_mem
  cases hb with
  | binary f hr => simp [binary_error hr hs h]
  | compare rel hw => simp [compare_error hw hs h]
  | unary f hr => simp [unary_error hr hs h]
  | shift f => simp [shift_error hs h]
  | divideU f => rcases divideU_error hs h with rfl | rfl <;> simp
  | divideS f => rcases divideS_error hs h with rfl | rfl <;> simp
  | arithF32 op => simp [arithF32_error hs h]
  | arithF64 op => simp [arithF64_error hs h]
  | compareF32 rel => simp [compare_error (by decide) hs (compareF32_eq rel s ▸ h)]
  | compareF64 rel => simp [compare_error (by decide) hs (compareF64_eq rel s ▸ h)]
  | jump w => rcases jump_error h with rfl | rfl <;> simp
  | jumpIf w => rcases jumpIf_error h with rfl | rfl <;> simp
  | call w => rcases call_error h with rfl | rfl | rfl <;> simp
  | ret hw => simp [ret_error hw hs h]
  | argCount => rcases argCount_error h with rfl | rfl <;> simp
  | argByte => simp [argByte_error hs h]
  | pushImm imm => rcases pushImm_error h with rfl | rfl <;> simp
  | dropBytes n => simp [(dropBytes_error h).1]
  | load hw => rcases load_error hw hs h with rfl | rfl <;> simp
  | storeByteAt w => rcases storeByteAt_error h with rfl | rfl <;> simp
  | halt => cases h
  | syscall => rcases syscall_error hs h with rfl | rfl <;> simp

/-- Kept by every update that an instruction makes, but for halting and the system call. -/
structure UpdateClosed (P : State → Prop) : Prop extends StackClosed P where
  draw : ∀ s, P s → P s.countDraw
  setPc : ∀ (s : State) (v : Word), P s → P (s.setPc v)
  setFp : ∀ (s : State) (v : Word), P s → P (s.setFp v)
  write : ∀ (s : State) (a : Nat) (b : Byte), a < s.params.storeCap → P s → P (s.setStore (s.store.write a b))

/-- A body that raises nothing keeps P, but for `HALT` and `SYSCALL`. Unlike `exec_keeps` this tells a state left by
a body from one left by a fault. -/
theorem Shape.ok_keeps {P : State → Prop} (hP : UpdateClosed P) {body : State → Except Cause State} (hb : Shape body)
    {s t : State} (h : body s = .ok t) (hs : P s) : P t ∨ t = s.setStatus .halted ∨ Machine.syscall s = .ok t := by
  have hj : ∀ (s : State) (v : Word), v.toNat < s.codeLen → P s → P (s.setPc v) := fun s v _ => hP.setPc s v
  cases hb with
  | binary f hr => exact .inl (hP.binary h hs)
  | compare rel hw => exact .inl (hP.compare h hs)
  | unary f hr => exact .inl (hP.unary h hs)
  | shift f => exact .inl (hP.shift h hs)
  | divideU f => exact .inl (hP.divideU h hs)
  | divideS f => exact .inl (hP.divideS h hs)
  | arithF32 op => exact .inl (hP.arithF32 hP.draw h hs)
  | arithF64 op => exact .inl (hP.arithF64 hP.draw h hs)
  | compareF32 rel => exact .inl (hP.compareF32 h hs)
  | compareF64 rel => exact .inl (hP.compareF64 h hs)
  | jump w => exact .inl (hP.jump hj h hs)
  | jumpIf w => exact .inl (hP.jumpIf hj h hs)
  | call w => exact .inl (hP.call hP.setFp hj h hs)
  | ret hw => exact .inl (hP.ret hP.setFp hP.setPc h hs)
  | argCount => exact .inl (hP.argCount h hs)
  | argByte => exact .inl (hP.argByte h hs)
  | pushImm imm => exact .inl (hP.pushImm (fun s n _ => hP.setPc s _) h hs)
  | dropBytes n => exact .inl (hP.dropBytes h hs)
  | load hw => exact .inl (hP.load h hs)
  | storeByteAt w => exact .inl (hP.storeByteAt hP.write h hs)
  | halt => exact .inr (.inl (Except.ok.inj h).symm)
  | syscall => exact .inr (.inr h)

/-! ### The host's answer -/

/-- What taking the answer leaves: the state as it is with no answer at hand, else the answer pushed. -/
theorem takeAnswer_ok {s t : State} (h : takeAnswer s = .ok t) :
    (s.answer? = none ∧ t = s) ∨ ∃ r, s.answer? = some r ∧ pushN r s.resume = .ok t := by
  simp only [takeAnswer] at h
  split at h
  next hr => exact .inl ⟨hr, (Except.ok.inj h).symm⟩
  next r hr => exact .inr ⟨r, hr, h⟩

theorem takeAnswer_of_some {s : State} {r : Word} (h : s.answer? = some r) : takeAnswer s = pushN r s.resume := by
  simp only [takeAnswer, h]

/-- A system call keeps what its pops, its request and the push of the answer keep. -/
theorem StackClosed.syscall_keeps {P : State → Prop} (hP : StackClosed P)
    (hc : ∀ (s : State) (num : Word) (args : List Word), P s → P (hostCall num args s))
    (hr : ∀ s, P s → P s.resume) {s t : State} (h : Machine.syscall s = .ok t) (hs : P s) : P t := by
  obtain ⟨num, args, u, hu, _, _, h⟩ := hP.syscall h hs
  rcases takeAnswer_ok h with ⟨_, rfl⟩ | ⟨r, _, h⟩
  · exact hc u num args hu
  · exact hP.pushN h (hr _ (hc u num args hu))

/-! ### Frames -/

/-- What does not look at `sp` and the stack is kept by pops and pushes. -/
theorem StackClosed.of_frame {P : State → Prop} (hsp : ∀ (s : State) (v : Word), P s → P (s.setSp v))
    (hst : ∀ (s : State) (m : Memory), P s → P (s.setStack m)) : StackClosed P where
  lower s v _ := hsp s v
  push bs s t h hs := by
    obtain ⟨_, rfl⟩ := pushBytes_ok h
    exact hsp _ _ (hst _ _ hs)

/-- `exec_keeps` for what halting and the system call keep too: an instruction keeps P or takes a fault. An update of a
field that P does not read keeps P by definition, which is the default of each hypothesis: a use names the others. -/
theorem exec_keeps_or_faults (P : State → Prop) (i : Instr) {s t : State} (h : exec i s = .next t) (hs : P s)
    (hsp : ∀ (s : State) (v : Word), P s → P (s.setSp v) := by intros; assumption)
    (hst : ∀ (s : State) (m : Memory), P s → P (s.setStack m) := by intros; assumption)
    (hd : ∀ s, P s → P s.countDraw := by intros; assumption)
    (hj : ∀ (s : State) (v : Word), (¬ isReturn i → v.toNat < s.codeLen) → P s → P (s.setPc v) := by
      intros; assumption)
    (hi : ∀ (s : State) (n : Nat), s.pc.toNat + n ≤ s.codeLen → P s → P (s.setPc (s.pc + BitVec.ofNat 64 n)) := by
      intros; assumption)
    (hf : writesFp i → ∀ (s : State) (v : Word), P s → P (s.setFp v) := by intros; assumption)
    (hw : isStore i → ∀ (s : State) (a : Nat) (b : Byte), a < s.params.storeCap → P s →
      P (s.setStore (s.store.write a b)) := by intros; assumption)
    (hh : ∀ s, P s → P (s.setStatus .halted) := by intros; assumption)
    (hc : ∀ (s : State) (num : Word) (args : List Word), P s → P (hostCall num args s) := by intros; assumption)
    (hr : ∀ s, P s → P s.resume := by intros; assumption) : P t ∨ ∃ c, t = raise c s := by
  have hP := StackClosed.of_frame hsp hst
  rcases exec_keeps hP hd i hj hi hf hw h hs with h | h | ⟨_, rfl⟩ | ⟨_, h⟩
  · exact .inl h
  · exact .inr h
  · exact .inl (hh s hs)
  · exact .inl (hP.syscall_keeps hc hr h hs)

/-! ### One step -/

theorem step_fetch_error {s : State} {c : Cause} (hc : s.commands = []) (hs : s.status = .running)
    (hf : fetch s = .error c) : step s = .next (raise c s) := by
  simp only [step, hc, hs, hf]

theorem step_fetch_ok {s u : State} {i : Instr} (hc : s.commands = []) (hs : s.status = .running)
    (hf : fetch s = .ok (i, u)) : step s = exec i u := by
  simp only [step, hc, hs, hf]

theorem step_answer {s : State} {r : Word} (hc : s.commands = []) (hs : s.status = .waitingHost)
    (hr : s.answer? = some r) : step s = finish s (pushN r s.resume) := by
  simp only [step, hc, hs, hr, takeAnswer_of_some hr]

/-- What a step with no command waiting is: a fetch that faults, a fetch and its instruction, or the host's answer
taken. -/
theorem step_no_command {s t : State} (hc : s.commands = []) (h : step s = .next t) :
    (s.status = .running ∧ ∃ c, fetch s = .error c ∧ t = raise c s) ∨
    (s.status = .running ∧ ∃ i, fetch s = .ok (i, s.setPc (s.pc + 1)) ∧ exec i (s.setPc (s.pc + 1)) = .next t) ∨
    (s.status = .waitingHost ∧ ∃ r, s.answer? = some r ∧ finish s (pushN r s.resume) = .next t) := by
  simp only [step, hc] at h
  split at h
  next hs =>
    split at h
    next c hf => exact .inl ⟨hs, c, hf, (Host.Outcome.next.inj h).symm⟩
    next i u hf =>
      obtain ⟨_, rfl, _⟩ := fetch_ok hf
      exact .inr (.inl ⟨hs, i, hf, h⟩)
  next hs =>
    split at h
    next => cases h
    next r hr => exact .inr (.inr ⟨hs, r, hr, takeAnswer_of_some hr ▸ h⟩)
  all_goals cases h

/-- What a step with a command waiting is. -/
theorem step_command {s : State} {c : Command} {rest : List Command} (hc : s.commands = c :: rest) :
    step s = .next (takeCommand c { s with commands := rest }) := by
  simp only [step, hc]

/-- What taking a command does: nothing, a reset within the sizes, or a run from Idle or Halted. -/
theorem takeCommand_cases (c : Command) (s : State) :
    takeCommand c s = s ∨
    (∃ stackCap storeCap code, c = .reset stackCap storeCap code ∧ stackCap < 2 ^ 64 ∧ storeCap < 2 ^ 64 ∧
      code.length < 2 ^ 64 ∧ takeCommand c s = resetMachine stackCap storeCap code s) ∨
    (∃ code startPc, c = .run code startPc ∧ (∀ cs, code = some cs → cs.length < 2 ^ 64) ∧
      (s.status = .idle ∨ s.status = .halted) ∧
      takeCommand c s = { s with code := code.getD s.code, pc := startPc, cause := .none, status := .running }) := by
  by_cases hw : c.wellSized = true
  · cases c with
    | reset stackCap storeCap code =>
      simp only [Command.wellSized, sizeOk, Bool.and_eq_true, decide_eq_true_eq] at hw
      obtain ⟨⟨h1, h2⟩, h3⟩ := hw
      exact .inr (.inl ⟨stackCap, storeCap, code, rfl, h1, h2, h3,
        if_pos (by simpa [Command.wellSized, sizeOk] using ⟨⟨h1, h2⟩, h3⟩)⟩)
    | run code startPc =>
      by_cases ha : s.status = .idle ∨ s.status = .halted
      · refine .inr (.inr ⟨code, startPc, rfl, ?_, ha, ?_⟩)
        · rintro cs rfl
          simpa [Command.wellSized, sizeOk] using hw
        · simp [takeCommand, hw, runMachine, State.acceptsRun, ha]
      · exact .inl (by simp [takeCommand, hw, runMachine, State.acceptsRun, ha])
  · exact .inl (by simp [takeCommand, hw])

end Sys2Proof.Machine
end

section
/-! SUPPORT. The invariant of the machine (10_state.md R34): each update keeps it, so each instruction, each command
and each answer of the host does. -/

namespace Sys2Proof.Machine

/-! ### The updates -/

/-- The invariant during an instruction: the machine runs, and STACK_CAP is the one on entry. -/
structure RunInv (cap : Nat) (s : State) : Prop where
  inv : StateInv s
  running : s.status = .running
  cap_eq : s.params.stackCap = cap

/-- No request is outstanding but in WaitingHost. -/
theorem StateInv.request_none {s : State} (h : StateInv s) (hs : s.status ≠ .waitingHost) : s.request = none := by
  simpa using mt h.waiting.2 hs

theorem StateInv.setPc {s : State} (h : StateInv s) (v : Word) : StateInv (s.setPc v) := { h with }

theorem StateInv.setFp {s : State} (h : StateInv s) (v : Word) : StateInv (s.setFp v) := { h with }

theorem StateInv.setCommands {s : State} (h : StateInv s) (cs : List Command) :
    StateInv { s with commands := cs } := { h with }

theorem StateInv.countDraw {s : State} (h : StateInv s) : StateInv s.countDraw :=
  { h with
    stackDrawn := Nat.lt_succ_of_lt h.stackDrawn
    storeDrawn := Nat.lt_succ_of_lt h.storeDrawn }

theorem StateInv.write {s : State} (h : StateInv s) {a : Nat} (ha : a < s.params.storeCap) (b : Byte) :
    StateInv (s.setStore (s.store.write a b)) :=
  { h with
    storeWf := Memory.wf_write h.storeWf a b
    storeBelow := Memory.below_write h.storeBelow ha b }

theorem StateInv.lower {s : State} (h : StateInv s) {v : Word} (hv : v.toNat ≤ s.sp.toNat) : StateInv (s.setSp v) :=
  { h with
    spLe := fun hs => hv.trans (h.spLe hs)
    written := fun hs i hi => h.written hs i (lt_of_lt_of_le hi hv)
    room := fun hs => (Nat.add_le_add_right hv 8).trans (h.room hs) }

/-- A push with no request outstanding; in WaitingHost it would take the room of the answer. -/
theorem StateInv.push {s t : State} {bs : List Byte} (h : StateInv s) (hs : s.status ≠ .waitingHost)
    (hp : pushBytes bs s = .ok t) : StateInv t := by
  obtain ⟨hroom, rfl⟩ := pushBytes_ok hp
  have hsp : (s.sp + BitVec.ofNat 64 bs.length).toNat = s.sp.toNat + bs.length := by
    have := h.stackCapLt
    simp only [BitVec.toNat_add, BitVec.toNat_ofNat]
    omega
  exact { h with
    stackWf := Memory.wf_writeBytes bs h.stackWf _
    stackBelow := Memory.below_writeBytes bs h.stackBelow hroom
    spLe := fun _ => hsp.trans_le hroom
    written := fun hf i hi => by
      have hi : i < s.sp.toNat + bs.length := hsp ▸ hi
      simp only [State.setSp_stack, State.setStack_stack, Memory.read?_writeBytes]
      split_ifs with hin
      · rw [List.getElem?_eq_getElem (by omega)]
        rfl
      · exact h.written hf i (by omega)
    room := fun hw => absurd hw hs }

theorem StateInv.halt {s : State} (h : StateInv s) (hs : s.status = .running) : StateInv (s.setStatus .halted) :=
  { h with
    spLe := fun _ => h.spLe (by simp [hs])
    written := fun _ => h.written (by simp [hs])
    waiting := by simp [h.request_none (by simp [hs])]
    room := nofun
    causeNone := by simp [h.causeNone, hs] }

/-- Presenting a request, where the answer has room. -/
theorem StateInv.hostCall {s : State} (h : StateInv s) (hs : s.status = .running) {num : Word} {args : List Word}
    (hargs : args.length ≤ 5) (hroom : s.sp.toNat + 8 ≤ s.params.stackCap) : StateInv (hostCall num args s) :=
  { h with
    spLe := fun _ => h.spLe (by simp [hs])
    written := fun _ => h.written (by simp [hs])
    waiting := by simp
    room := fun _ => hroom
    outstanding := by
      rintro r hr
      obtain rfl := Option.some.inj hr
      exact ⟨by simp, hargs⟩
    causeNone := by simp [h.causeNone, hs] }

theorem StateInv.resume {s : State} (h : StateInv s) (hs : s.status = .waitingHost) : StateInv s.resume :=
  { h with
    spLe := fun _ => h.spLe (by simp [hs])
    written := fun _ => h.written (by simp [hs])
    waiting := by simp
    room := nofun
    outstanding := nofun
    causeNone := by simp [h.causeNone, hs] }

/-- A fault with no request outstanding. In WaitingHost it would leave the request with status Faulted. -/
theorem StateInv.raise {s : State} (h : StateInv s) (hs : s.status ≠ .waitingHost) {c : Cause} (hc : c.raisable) :
    StateInv (raise c s) :=
  { h with
    stackWf := List.Pairwise.nil
    stackBelow := nofun
    spLe := fun hf => absurd rfl hf
    written := fun hf => absurd rfl hf
    waiting := by simp [h.request_none hs]
    room := nofun
    causeNone := by simp [hc.1]
    noAllocation := hc.2
    stackDrawn := Nat.lt_succ_self _
    storeDrawn := Nat.lt_succ_of_lt h.storeDrawn }

/-! ### Instructions -/

theorem runInv_closed (cap : Nat) : UpdateClosed (RunInv cap) where
  lower _ _ hv h := ⟨h.inv.lower hv, h.running, h.cap_eq⟩
  push bs s t hp h := by
    have hi := h.inv.push (by simp [h.running]) hp
    obtain ⟨_, rfl⟩ := pushBytes_ok hp
    exact ⟨hi, h.running, h.cap_eq⟩
  draw _ h := ⟨h.inv.countDraw, h.running, h.cap_eq⟩
  setPc _ v h := ⟨h.inv.setPc v, h.running, h.cap_eq⟩
  setFp _ v h := ⟨h.inv.setFp v, h.running, h.cap_eq⟩
  write _ _ b ha h := ⟨h.inv.write ha b, h.running, h.cap_eq⟩

/-- The push of the answer to an outstanding request has room, and keeps the invariant. -/
theorem StateInv.answer {s t : State} {r : Word} (h : StateInv s) (hs : s.status = .waitingHost)
    (ht : finish s (pushN r s.resume) = .next t) : StateInv t ∧ t.status = .running := by
  rcases finish_next ht with hp | ⟨c, hp, _⟩
  · have hi := (h.resume hs).push (by simp) hp
    obtain ⟨_, rfl⟩ := pushBytes_ok hp
    exact ⟨hi, rfl⟩
  · have hover := (pushN_error hp).2
    have hroom := h.room hs
    simp only [State.resume_sp, State.resume_params] at hover
    omega

theorem syscall_inv {s t : State} (h : StateInv s) (hs : s.status = .running) (ht : syscall s = .ok t) :
    StateInv t := by
  obtain ⟨num, args, u, hu, hargs, hsp, ht⟩ := (runInv_closed s.params.stackCap).syscall ht ⟨h, hs, rfl⟩
  have hle := h.spLe (by simp [hs])
  have hcall : StateInv (hostCall num args u) :=
    hu.inv.hostCall hu.running hargs (by rw [hu.cap_eq]; omega)
  rcases takeAnswer_ok ht with ⟨_, rfl⟩ | ⟨r, _, ht⟩
  · exact hcall
  · exact (hcall.resume rfl).push (by simp) ht

/-- An instruction keeps the invariant. -/
theorem exec_inv (i : Instr) {s t : State} (h : StateInv s) (hs : s.status = .running) (ht : exec i s = .next t) :
    StateInv t := by
  obtain ⟨body, hb, he⟩ := exec_shape i
  rcases finish_next (he s ▸ ht) with hk | ⟨c, hk, rfl⟩
  · rcases hb.ok_keeps (runInv_closed s.params.stackCap) hk ⟨h, hs, rfl⟩ with h' | rfl | hsys
    · exact h'.inv
    · exact h.halt hs
    · exact syscall_inv h hs hsys
  · exact h.raise (by simp [hs]) (hb.error_raisable (h.spLe (by simp [hs])) hk)

/-! ### Commands -/

/-- A reset starts a life that meets the invariant, whatever the old life was: only the opcode map stays. -/
theorem resetMachine_inv {s : State} (hm : OpMap.wellFormed s.params.opmap = true) {stackCap storeCap : Nat}
    {code : List Byte} (h1 : stackCap < 2 ^ 64) (h2 : storeCap < 2 ^ 64) (h3 : code.length < 2 ^ 64) :
    StateInv (resetMachine stackCap storeCap code s) where
  stackWf := List.Pairwise.nil
  storeWf := List.Pairwise.nil
  stackBelow := nofun
  storeBelow := nofun
  spLe _ := Nat.zero_le _
  written _ i hi := absurd hi (Nat.not_lt_zero i)
  waiting := by simp [resetMachine]
  room := nofun
  outstanding := nofun
  causeNone := by simp [resetMachine]
  noAllocation := nofun
  stackCapLt := h1
  storeCapLt := h2
  codeLenLt := h3
  opmapWf := hm
  stackDrawn := Nat.lt_succ_self _
  storeDrawn := Nat.lt_succ_self _

/-- A run from Idle or Halted keeps the invariant; `startPc` may be anything. -/
theorem StateInv.run {s : State} (h : StateInv s) (hs : s.status = .idle ∨ s.status = .halted)
    {code : Option (List Byte)} (hc : ∀ cs, code = some cs → cs.length < 2 ^ 64) (startPc : Word) :
    StateInv { s with code := code.getD s.code, pc := startPc, cause := .none, status := .running } := by
  have hf : s.status ≠ .faulted := by rcases hs with hs | hs <;> simp [hs]
  have hw : s.status ≠ .waitingHost := by rcases hs with hs | hs <;> simp [hs]
  exact { h with
    spLe := fun _ => h.spLe hf
    written := fun _ => h.written hf
    waiting := by simp [h.request_none hw]
    room := nofun
    causeNone := by simp
    noAllocation := nofun
    codeLenLt := by
      cases code with
      | none => exact h.codeLenLt
      | some cs => exact hc cs rfl }

theorem takeCommand_inv (c : Command) {s : State} (h : StateInv s) : StateInv (takeCommand c s) := by
  rcases takeCommand_cases c s with e | ⟨_, _, _, _, h1, h2, h3, e⟩ | ⟨_, startPc, _, hc, hs, e⟩
  · rwa [e]
  · rw [e]
    exact resetMachine_inv h.opmapWf h1 h2 h3
  · rw [e]
    exact h.run hs hc startPc

/-! ### The statements -/

/-- Settles O50: a command, an instruction, a fault of the fetch and an answer of the host each keep the
invariant. -/
theorem invariantKeptByEveryStep : Obligations.InvariantKeptByEveryStep := by
  intro s t h ht
  cases hc : s.commands with
  | cons c rest =>
    obtain rfl := Host.Outcome.next.inj (step_command hc ▸ ht)
    exact takeCommand_inv c (h.setCommands rest)
  | nil =>
    rcases step_no_command hc ht with ⟨hs, c, hf, rfl⟩ | ⟨hs, i, _, hi⟩ | ⟨hs, r, _, ha⟩
    · exact h.raise (by simp [hs]) (Cause.raisable_of_mem (by rcases fetch_error hf with rfl | rfl <;> simp))
    · exact exec_inv i (h.setPc (s.pc + 1)) hs hi
    · exact (h.answer hs ha).1

/-- The state after reset is what a reset command with its sizes leaves, at the draw before its own. -/
theorem reset_eq_resetMachine : State.reset =
    resetMachine Config.resetStackCap Config.resetStoreCap [] { State.reset with draws := 0 } := rfl

theorem reset_opmap_wellFormed : OpMap.wellFormed State.reset.params.opmap = true := by decide +kernel

/-- Settles O49: a reset starts a life that meets the invariant, and the default opcode map is well formed. -/
theorem invariantHoldsAtReset : Obligations.InvariantHoldsAtReset := by
  unfold Obligations.InvariantHoldsAtReset
  rw [reset_eq_resetMachine]
  apply resetMachine_inv
  · exact reset_opmap_wellFormed
  all_goals decide

end Sys2Proof.Machine
end

section
/-! SUPPORT. What instructions and steps leave unchanged: pc within the code, fp, the store, the code and the
parameters, the status (10_state.md R22, R25, R27, R29, R32). -/

namespace Sys2Proof.Machine

/-! ### Instructions -/

/-- An instruction other than RET leaves pc within the code, or takes a fault. -/
theorem exec_pc_le {i : Instr} (hi : ¬ isReturn i) {s t : State} (hs : s.pc.toNat ≤ s.codeLen)
    (h : exec i s = .next t) : t.pc.toNat ≤ t.codeLen ∨ ∃ c, t = raise c s :=
  exec_keeps_or_faults (fun u => u.pc.toNat ≤ u.codeLen) i h hs
    (hj := fun _ _ hv _ => (hv hi).le)
    (hi := fun u n hn _ => by
      have hle : (u.pc + BitVec.ofNat 64 n).toNat ≤ u.pc.toNat + n := by
        simp only [BitVec.toNat_add, BitVec.toNat_ofNat]
        omega
      exact hle.trans hn)

/-- An instruction other than CALL and RET leaves fp as it was, or takes a fault. -/
theorem exec_fp_eq {i : Instr} (hi : ¬ writesFp i) {s t : State} (h : exec i s = .next t) :
    t.fp = s.fp ∨ ∃ c, t = raise c s :=
  exec_keeps_or_faults (fun u => u.fp = s.fp) i h rfl (hf := fun hw => absurd hw hi)

/-- An instruction other than STORE leaves the store as it was; so does a fault. -/
theorem exec_store_eq {i : Instr} (hi : ¬ isStore i) {s t : State} (h : exec i s = .next t) :
    t.store = s.store ∧ t.storeDraw = s.storeDraw := by
  rcases exec_keeps_or_faults (fun u => u.store = s.store ∧ u.storeDraw = s.storeDraw) i h ⟨rfl, rfl⟩
    (hw := fun hw => absurd hw hi) with ht | ⟨c, rfl⟩
  · exact ht
  · exact ⟨rfl, rfl⟩

/-- No instruction writes the code or the parameters. -/
theorem exec_code_params_eq (i : Instr) {s t : State} (h : exec i s = .next t) :
    t.code = s.code ∧ t.params = s.params := by
  rcases exec_keeps_or_faults (fun u => u.code = s.code ∧ u.params = s.params) i h ⟨rfl, rfl⟩ with ht | ⟨c, rfl⟩
  · exact ht
  · exact ⟨rfl, rfl⟩

/-- A status that no update sets is not reached but by a fault: HALT sets Halted, SYSCALL WaitingHost or Running. -/
theorem exec_status_ne {x : Status} (hx : x = .idle ∨ x = .faulted) (i : Instr) {s t : State} (hs : s.status ≠ x)
    (h : exec i s = .next t) : t.status ≠ x ∨ ∃ c, t = raise c s :=
  exec_keeps_or_faults (fun u => u.status ≠ x) i h hs
    (hh := fun _ _ => by rcases hx with rfl | rfl <;> simp)
    (hc := fun _ _ _ _ => by rcases hx with rfl | rfl <;> simp)
    (hr := fun _ _ => by rcases hx with rfl | rfl <;> simp)

/-! ### The statements -/

/-- Settles O51: a jump checks its target, PUSH moves pc over bytes that are there, a fault is excluded. -/
theorem pcStaysWithinCodeExceptAfterReturn : Obligations.PcStaysWithinCodeExceptAfterReturn := by
  intro i s t hi hs h ht
  rcases exec_pc_le hi hs h with hpc | ⟨c, rfl⟩
  · exact hpc
  · exact absurd rfl ht

/-- Settles O52. -/
theorem onlyCallAndReturnWriteFp : Obligations.OnlyCallAndReturnWriteFp := by
  intro i s t hi h ht
  rcases exec_fp_eq hi h with hfp | ⟨c, rfl⟩
  · exact hfp
  · exact absurd rfl ht

/-- Settles O53: STORE alone writes the store, and a state that became Faulted is the one `raise` made of the
state on entry. -/
theorem onlyStoreWritesTheStore : Obligations.OnlyStoreWritesTheStore := by
  intro i s t h hor a
  rcases hor with hi | ⟨hs, ht⟩
  · obtain ⟨hstore, hdraw⟩ := exec_store_eq hi h
    simp [State.storeByte, hstore, hdraw]
  · rcases exec_status_ne (.inr rfl) i hs h with hne | ⟨c, rfl⟩
    · exact absurd ht hne
    · rfl

/-- Settles O54: no instruction, no fault and no answer of the host writes them. -/
theorem noInstructionWritesCodeOrParameters : Obligations.NoInstructionWritesCodeOrParameters := by
  refine ⟨fun i s t h => exec_code_params_eq i h, fun s t hc h => ?_⟩
  rcases step_no_command hc h with ⟨_, c, _, rfl⟩ | ⟨_, i, _, hi⟩ | ⟨_, r, _, ha⟩
  · exact ⟨rfl, rfl⟩
  · simpa using exec_code_params_eq i hi
  · rcases finish_next ha with hp | ⟨c, _, rfl⟩
    · obtain ⟨_, rfl⟩ := pushBytes_ok hp
      exact ⟨rfl, rfl⟩
    · exact ⟨rfl, rfl⟩

/-- Settles O56: an instruction runs in Running and ends outside Idle, and the answer to an outstanding request
has room. -/
theorem statusMovesOnlyAsStated : Obligations.StatusMovesOnlyAsStated := by
  intro s t h hc ht
  rcases step_no_command hc ht with ⟨hs, c, _, rfl⟩ | ⟨hs, i, _, hi⟩ | ⟨hs, r, _, ha⟩
  · exact .inl ⟨hs, by simp⟩
  · refine .inl ⟨hs, ?_⟩
    rcases exec_status_ne (.inl rfl) i (by simp [hs]) hi with hne | ⟨c, rfl⟩
    · exact hne
    · simp
  · exact .inr ⟨hs, (h.answer hs ha).2⟩

/-- Settles O48: with no command there is no step in Faulted, and of the commands only a reset is accepted. -/
theorem faultedIsLeftOnlyByReset : Obligations.FaultedIsLeftOnlyByReset := by
  intro s t hs ht
  cases hc : s.commands with
  | nil => rcases step_no_command hc ht with ⟨hr, _⟩ | ⟨hr, _⟩ | ⟨hr, _⟩ <;> simp [hs] at hr
  | cons c rest =>
    refine ⟨c, rest, rfl, ?_⟩
    obtain rfl := Host.Outcome.next.inj (step_command hc ▸ ht)
    rcases takeCommand_cases c { s with commands := rest } with
      e | ⟨stackCap, storeCap, code, hcmd, h1, h2, h3, e⟩ | ⟨_, _, _, _, hr, _⟩
    · exact .inl (by rw [e]; exact ⟨hs, rfl⟩)
    · exact .inr (by rw [e]; exact ⟨rfl, rfl, stackCap, storeCap, code, hcmd, h1, h2, h3⟩)
    · simp [hs] at hr

/-- Settles O58: the fields of `State.reset` as they are written. -/
theorem resetLeavesTheStatedValues : Obligations.ResetLeavesTheStatedValues :=
  ⟨rfl, rfl, rfl, rfl, rfl, rfl, rfl, rfl⟩

end Sys2Proof.Machine
end

section
/-! SUPPORT. Stack bytes at or above `sp` are never read (10_state.md R31): two states that differ in nothing else stay
so under each update, each shared operation on them answers the same, and so does each instruction and each step. -/

namespace Sys2Proof.Rules

open Sys2Proof.Machine

/-! ### The relation on states -/

/-- The state with another stack, and another draw for its unlisted bytes. -/
def withStack (s : State) (m : Memory) (d : Nat) : State := { s with stack := m, stackDraw := d }

section

variable {s s' : State}

theorem sameButDeadStack_iff : SameButDeadStack s s' ↔
    ∃ m d, s' = withStack s m d ∧ ∀ k, k < s.sp.toNat → (withStack s m d).stackByte k = s.stackByte k := by
  constructor
  · rintro ⟨e, hb⟩
    exact ⟨s'.stack, s'.stackDraw, e, fun k hk => e ▸ hb k hk⟩
  · rintro ⟨m, d, rfl, hb⟩
    exact ⟨rfl, hb⟩

theorem SameButDeadStack.refl (s : State) : SameButDeadStack s s := ⟨rfl, fun _ _ => rfl⟩

variable (h : SameButDeadStack s s')

include h

/-- What does not look at the stack reads the same. -/
theorem SameButDeadStack.read_eq {α : Type} (f : State → α)
    (hf : ∀ u m d, f (withStack u m d) = f u := by intros; rfl) : f s' = f s := by
  obtain ⟨m, d, rfl, _⟩ := sameButDeadStack_iff.1 h
  exact hf s m d

theorem SameButDeadStack.pc_eq : s'.pc = s.pc := h.read_eq State.pc
theorem SameButDeadStack.sp_eq : s'.sp = s.sp := h.read_eq State.sp
theorem SameButDeadStack.fp_eq : s'.fp = s.fp := h.read_eq State.fp
theorem SameButDeadStack.status_eq : s'.status = s.status := h.read_eq State.status
theorem SameButDeadStack.code_eq : s'.code = s.code := h.read_eq State.code
theorem SameButDeadStack.codeLen_eq : s'.codeLen = s.codeLen := h.read_eq State.codeLen
theorem SameButDeadStack.params_eq : s'.params = s.params := h.read_eq State.params
theorem SameButDeadStack.commands_eq : s'.commands = s.commands := h.read_eq State.commands
theorem SameButDeadStack.draws_eq : s'.draws = s.draws := h.read_eq State.draws
theorem SameButDeadStack.answer?_eq : s'.answer? = s.answer? := h.read_eq State.answer?
theorem SameButDeadStack.acceptsRun_eq : s'.acceptsRun = s.acceptsRun := h.read_eq State.acceptsRun
theorem SameButDeadStack.storeByte_eq (a : Nat) : s'.storeByte a = s.storeByte a := h.read_eq (·.storeByte a)

/-- The live bytes read the same. -/
theorem SameButDeadStack.stackBytes_eq {k n : Nat} (hk : k + n ≤ s.sp.toNat) :
    s'.stackBytes k n = s.stackBytes k n :=
  List.map_congr_left fun j hj => h.2 _ (by have := List.mem_range.1 hj; omega)

/-- An update that neither reads nor writes the stack, and does not raise `sp`, keeps the relation. Of a named update
both hold by definition, but for `setSp`. -/
theorem SameButDeadStack.map (f : State → State)
    (hf : ∀ u m d, f (withStack u m d) = withStack (f u) m d := by intros; rfl)
    (hsp : (f s).sp.toNat ≤ s.sp.toNat := by exact le_rfl) : SameButDeadStack (f s) (f s') := by
  obtain ⟨m, d, rfl, hb⟩ := sameButDeadStack_iff.1 h
  have hfs : f s = withStack (f s) s.stack s.stackDraw := hf s s.stack s.stackDraw
  refine sameButDeadStack_iff.2 ⟨m, d, hf s m d, fun k hk => ?_⟩
  calc (withStack (f s) m d).stackByte k = (withStack s m d).stackByte k := rfl
    _ = s.stackByte k := hb k (hk.trans_le hsp)
    _ = (withStack (f s) s.stack s.stackDraw).stackByte k := rfl
    _ = (f s).stackByte k := by rw [← hfs]

/-- A fault draws the whole stack anew, so two states become one. -/
theorem SameButDeadStack.raise_same (c : Cause) : SameButDeadStack (raise c s) (raise c s') :=
  h.read_eq (raise c) ▸ .refl _

/-- A reset does too. -/
theorem SameButDeadStack.reset_same (stackCap storeCap : Nat) (code : List Byte) :
    SameButDeadStack (resetMachine stackCap storeCap code s) (resetMachine stackCap storeCap code s') :=
  h.read_eq (resetMachine stackCap storeCap code) ▸ .refl _

/-- Bytes written at `sp` read the same afterwards; `sp` rises no further than over them. -/
theorem SameButDeadStack.push (bs : List Byte) :
    SameButDeadStack
      ((s.setStack (s.stack.writeBytes s.sp.toNat bs)).setSp (s.sp + BitVec.ofNat 64 bs.length))
      ((s'.setStack (s'.stack.writeBytes s'.sp.toNat bs)).setSp (s'.sp + BitVec.ofNat 64 bs.length)) := by
  obtain ⟨m, d, rfl, hb⟩ := sameButDeadStack_iff.1 h
  refine ⟨rfl, fun k hk => ?_⟩
  have hle : (s.sp + BitVec.ofNat 64 bs.length).toNat ≤ s.sp.toNat + bs.length := by
    simp only [BitVec.toNat_add, BitVec.toNat_ofNat]
    omega
  have hk : k < s.sp.toNat + bs.length := hk.trans_le hle
  simp only [State.stackByte, State.setSp_stack, State.setStack_stack, State.setSp_stackDraw,
    State.setStack_stackDraw, Memory.read?_writeBytes, withStack]
  split_ifs with hin
  · simp [List.getElem?_eq_getElem (show k - s.sp.toNat < bs.length by omega)]
  · exact hb k (by omega)

end

/-! ### The relation on answers -/

/-- Two computations raise the same cause, or both answer and their answers are related. -/
inductive Agree {α : Type} (R : α → α → Prop) : Except Cause α → Except Cause α → Prop where
  | ok {a b : α} (h : R a b) : Agree R (.ok a) (.ok b)
  | error (c : Cause) : Agree R (.error c) (.error c)

/-- The same value, and states that differ only in dead stack bytes. -/
def SameAnswer {α : Type} (x y : α × State) : Prop := x.1 = y.1 ∧ SameButDeadStack x.2 y.2

theorem Agree.of_ok {α : Type} {R : α → α → Prop} {a : α} {y : Except Cause α} (h : Agree R (.ok a) y) :
    ∃ b, y = .ok b ∧ R a b := by
  cases h with
  | ok h => exact ⟨_, rfl, h⟩

theorem Agree.of_error {α : Type} {R : α → α → Prop} {c : Cause} {y : Except Cause α} (h : Agree R (.error c) y) :
    y = .error c := by
  cases h with
  | error => rfl

theorem Agree.bind {α β : Type} {R : α → α → Prop} {Q : β → β → Prop} {x y : Except Cause α}
    {f g : α → Except Cause β} (hx : Agree R x y) (hf : ∀ a b, R a b → Agree Q (f a) (g b)) :
    Agree Q (x >>= f) (y >>= g) := by
  cases hx with
  | ok h => exact hf _ _ h
  | error c => exact .error c

/-- After a computation that answers a value and a state, the rest gets the same value. -/
theorem Agree.bindValue {α β : Type} {Q : β → β → Prop} {x y : Except Cause (α × State)}
    {f : α × State → Except Cause β} (hx : Agree SameAnswer x y)
    (hf : ∀ a s s', SameButDeadStack s s' → Agree Q (f (a, s)) (f (a, s'))) : Agree Q (x >>= f) (y >>= f) :=
  hx.bind fun
    | (a, u), (_, u'), ⟨rfl, h⟩ => hf a u u' h

/-! ### The shared operations -/

section

variable {s s' : State} (h : SameButDeadStack s s')

include h

theorem pushBytes_agree (bs : List Byte) : Agree SameButDeadStack (pushBytes bs s) (pushBytes bs s') := by
  have hp := h.push bs
  simp only [pushBytes, h.sp_eq, h.params_eq] at hp ⊢
  split_ifs
  · exact .error _
  · exact .ok hp

theorem pushN_agree {w : Nat} (v : BitVec w) : Agree SameButDeadStack (pushN v s) (pushN v s') :=
  pushBytes_agree h _

theorem push1_agree (b : Byte) : Agree SameButDeadStack (push1 b s) (push1 b s') := pushBytes_agree h _

theorem lower_same {n : Nat} (hn : n ≤ s.sp.toNat) :
    SameButDeadStack (s.setSp (s.sp - BitVec.ofNat 64 n)) (s'.setSp (s.sp - BitVec.ofNat 64 n)) :=
  h.map (·.setSp _) (hsp := by simp only [State.setSp_sp, toNat_sub_le hn]; omega)

theorem popBytes_agree (n : Nat) : Agree SameAnswer (popBytes n s) (popBytes n s') := by
  simp only [popBytes, h.sp_eq]
  split_ifs with hn
  · exact .error _
  · exact .ok ⟨(h.stackBytes_eq (by omega)).symm, lower_same h (not_lt.1 hn)⟩

theorem popN_agree (w : Nat) : Agree SameAnswer (popN w s) (popN w s') :=
  (popBytes_agree h _).bindValue fun _ _ _ h => .ok ⟨rfl, h⟩

theorem pop1_agree : Agree SameAnswer (pop1 s) (pop1 s') := by
  rw [pop1_eq, pop1_eq]
  exact popN_agree h 8

theorem dropBytes_agree (n : Nat) : Agree SameButDeadStack (dropBytes n s) (dropBytes n s') := by
  simp only [dropBytes, h.sp_eq]
  split_ifs with hn
  · exact .error _
  · exact .ok (lower_same h (not_lt.1 hn))

theorem popPair_agree (w : Nat) : Agree SameAnswer (popPair w s) (popPair w s') :=
  (popN_agree h w).bindValue fun _ _ _ h => (popN_agree h w).bindValue fun _ _ _ h => .ok ⟨rfl, h⟩

theorem popTarget_agree (w : Nat) : Agree SameAnswer (popTarget w s) (popTarget w s') :=
  (popN_agree h w).bindValue fun _ _ _ h => .ok ⟨rfl, h⟩

theorem popAddress_agree (w : Nat) : Agree SameAnswer (popAddress w s) (popAddress w s') :=
  (popN_agree h w).bindValue fun _ _ _ h => .ok ⟨rfl, h⟩

theorem popArgs_agree (n : Nat) : Agree SameAnswer (popArgs n s) (popArgs n s') := by
  induction n generalizing s s' with
  | zero => exact .ok ⟨rfl, h⟩
  | succ n ih =>
    exact (popN_agree h 64).bindValue fun _ _ _ h => (ih h).bindValue fun _ _ _ h => .ok ⟨rfl, h⟩

/-- `FrameRead` reads below `sp` only (40_primitives.md R110). -/
theorem frameRead_agree (k : Int) : Agree Eq (frameRead k s) (frameRead k s') := by
  simp only [frameRead, h.sp_eq]
  split_ifs with h0 h1
  · exact .error _
  · exact .error _
  · exact .ok (h.2 _ (by omega)).symm

theorem storeRead_agree (a : Nat) : Agree Eq (storeRead a s) (storeRead a s') := by
  simp only [storeRead, h.params_eq, h.storeByte_eq]
  split_ifs
  · exact .error _
  · exact .ok rfl

theorem storeWrite_agree (a : Nat) (b : Byte) : Agree SameButDeadStack (storeWrite a b s) (storeWrite a b s') := by
  simp only [storeWrite, h.params_eq]
  split_ifs
  · exact .error _
  · exact .ok (h.map fun u => u.setStore (u.store.write a b))

theorem jumpTo_agree (v : Word) : Agree SameButDeadStack (jumpTo v s) (jumpTo v s') := by
  simp only [jumpTo, checkTarget, h.codeLen_eq]
  split_ifs
  · exact .error _
  · exact .ok (h.map (·.setPc v))

theorem takeAnswer_agree : Agree SameButDeadStack (takeAnswer s) (takeAnswer s') := by
  simp only [takeAnswer, h.answer?_eq]
  split
  · exact .ok h
  · exact pushN_agree (h.map State.resume) _

/-- The draw that `FNUM` takes is the same in both states. -/
theorem applyFnum_same {w : Nat} (fmt : FloatFormat) (op : FloatOp) (a b : BitVec w) :
    SameAnswer (applyFnum fmt op a b s) (applyFnum fmt op a b s') := by
  refine ⟨by simp only [applyFnum, h.draws_eq], ?_⟩
  simp only [applyFnum]
  split_ifs
  · exact h.map State.countDraw
  · exact h

/-! ### The instructions -/

theorem binary_agree {w r : Nat} (f : BitVec w → BitVec w → BitVec r) :
    Agree SameButDeadStack (binary w f s) (binary w f s') :=
  (popPair_agree h w).bindValue fun _ _ _ h => pushN_agree h _

theorem divideU_agree {w : Nat} (f : BitVec w → BitVec w → BitVec w) :
    Agree SameButDeadStack (divideU w f s) (divideU w f s') :=
  (popPair_agree h w).bindValue fun (a, b) _ _ h => by
    dsimp only
    split_ifs
    · exact .error _
    · exact pushN_agree h _

theorem divideS_agree {w : Nat} (f : BitVec w → BitVec w → BitVec w) :
    Agree SameButDeadStack (divideS w f s) (divideS w f s') :=
  (popPair_agree h w).bindValue fun (a, b) _ _ h => by
    simp only [h.params_eq]
    split_ifs
    · exact .error _
    · exact .error _
    · exact pushN_agree h _

theorem arithF32_agree (op : FloatOp) : Agree SameButDeadStack (arithF32 op s) (arithF32 op s') := by
  simp only [arithF32, popPairF32_eq]
  refine (popPair_agree h 32).bindValue fun (a, b) _ _ h => ?_
  obtain ⟨hr, hs⟩ := applyFnum_same h binary32 op a b
  dsimp only
  rw [hr]
  exact pushBytes_agree hs _

theorem arithF64_agree (op : FloatOp) : Agree SameButDeadStack (arithF64 op s) (arithF64 op s') := by
  simp only [arithF64, popPairF64_eq]
  refine (popPair_agree h 64).bindValue fun (a, b) _ _ h => ?_
  obtain ⟨hr, hs⟩ := applyFnum_same h binary64 op a b
  dsimp only
  rw [hr]
  exact pushBytes_agree hs _

theorem jumpIf_agree (w : Nat) : Agree SameButDeadStack (jumpIf w s) (jumpIf w s') :=
  (popTarget_agree h w).bindValue fun _ _ _ h => (pop1_agree h).bindValue fun _ _ _ h => by
    dsimp only
    split_ifs
    · exact jumpTo_agree h _
    · exact .ok h

theorem call_agree (w : Nat) : Agree SameButDeadStack (call w s) (call w s') := by
  refine (popTarget_agree h w).bindValue fun _ u u' h => ?_
  dsimp only
  rw [h.pc_eq]
  refine (pushN_agree h _).bind fun u u' h => ?_
  rw [h.fp_eq]
  refine (pushN_agree h _).bind fun u u' h => ?_
  rw [h.sp_eq]
  exact jumpTo_agree (h.map (·.setFp u.sp)) _

/-- `RET` lowers `sp` to `fp`, which it has checked to be no higher. -/
theorem ret_agree (w : Nat) : Agree SameButDeadStack (ret w s) (ret w s') := by
  refine (popN_agree h w).bindValue fun v u u' h => ?_
  simp only [h.fp_eq, h.sp_eq]
  split_ifs with hfp
  · exact .error _
  have hlow : SameButDeadStack (u.setSp u.fp) (u'.setSp u.fp) := h.map (·.setSp u.fp) (hsp := not_lt.1 hfp)
  exact (popN_agree hlow 64).bindValue fun fp _ _ h => (popN_agree h 64).bindValue fun pc _ _ h =>
    (pop1_agree h).bindValue fun n _ _ h => (dropBytes_agree h _).bind fun _ _ h =>
    (pushN_agree h v).bind fun _ _ h => .ok (h.map fun u => (u.setFp fp).setPc pc)

theorem argCount_agree : Agree SameButDeadStack (argCount s) (argCount s') := by
  simp only [argCount, h.fp_eq]
  exact (frameRead_agree h _).bind fun b _ e => e ▸ push1_agree h b

theorem argByte_agree : Agree SameButDeadStack (argByte s) (argByte s') :=
  (pop1_agree h).bindValue fun i _ _ h => by
    simp only [h.fp_eq]
    exact (frameRead_agree h _).bind fun b _ e => e ▸ push1_agree h b

theorem pushImm_agree {w : Nat} (imm : BitVec w) : Agree SameButDeadStack (pushImm imm s) (pushImm imm s') := by
  simp only [pushImm, h.pc_eq, h.codeLen_eq]
  split_ifs
  · exact .error _
  · exact pushN_agree (h.map (·.setPc _)) imm

theorem load_agree (w : Nat) : Agree SameButDeadStack (load w s) (load w s') :=
  (popAddress_agree h w).bindValue fun a _ _ h => (storeRead_agree h a).bind fun b _ e => e ▸ push1_agree h b

theorem storeByteAt_agree (w : Nat) : Agree SameButDeadStack (storeByteAt w s) (storeByteAt w s') :=
  (popAddress_agree h w).bindValue fun a _ _ h => (pop1_agree h).bindValue fun b _ _ h => storeWrite_agree h a b

theorem syscall_agree : Agree SameButDeadStack (syscall s) (syscall s') :=
  (pop1_agree h).bindValue fun n _ _ h => by
    dsimp only
    split_ifs
    · exact .error _
    exact (popArgs_agree h _).bindValue fun args _ _ h => (popN_agree h 64).bindValue fun num _ _ h =>
      takeAnswer_agree (h.map (hostCall num args))

/-- Every body answers the same on both states. -/
theorem shape_agree {body : State → Except Cause State} (hb : Shape body) :
    Agree SameButDeadStack (body s) (body s') := by
  cases hb with
  | binary f hr => exact binary_agree h f
  | compare rel hw => exact binary_agree h _
  | unary f hr => exact (popN_agree h _).bindValue fun _ _ _ h => pushN_agree h _
  | shift f =>
    exact (pop1_agree h).bindValue fun _ _ _ h => (popN_agree h _).bindValue fun _ _ _ h => pushN_agree h _
  | divideU f => exact divideU_agree h f
  | divideS f => exact divideS_agree h f
  | arithF32 op => exact arithF32_agree h op
  | arithF64 op => exact arithF64_agree h op
  | compareF32 rel =>
    rw [compareF32_eq, compareF32_eq]
    exact binary_agree h _
  | compareF64 rel =>
    rw [compareF64_eq, compareF64_eq]
    exact binary_agree h _
  | jump w => exact (popTarget_agree h w).bindValue fun v _ _ h => jumpTo_agree h v
  | jumpIf w => exact jumpIf_agree h w
  | call w => exact call_agree h w
  | ret hw => exact ret_agree h _
  | argCount => exact argCount_agree h
  | argByte => exact argByte_agree h
  | pushImm imm => exact pushImm_agree h imm
  | dropBytes n => exact dropBytes_agree h n
  | load hw => exact load_agree h _
  | storeByteAt w => exact storeByteAt_agree h w
  | halt => exact .ok (h.map (·.setStatus .halted))
  | syscall => exact syscall_agree h

/-! ### The step -/

theorem finish_same {r r' : Except Cause State} (hr : Agree SameButDeadStack r r') {t : State}
    (ht : finish s r = .next t) : ∃ t', finish s' r' = .next t' ∧ SameButDeadStack t t' := by
  cases hr with
  | ok hu =>
    obtain rfl := Host.Outcome.next.inj ht
    exact ⟨_, rfl, hu⟩
  | error c =>
    obtain rfl := Host.Outcome.next.inj ht
    exact ⟨_, rfl, h.raise_same c⟩

theorem exec_same (i : Instr) {t : State} (ht : exec i s = .next t) :
    ∃ t', exec i s' = .next t' ∧ SameButDeadStack t t' := by
  obtain ⟨body, hb, he⟩ := exec_shape i
  rw [he] at ht ⊢
  exact finish_same h (shape_agree h hb) ht

theorem fetch_agree : Agree SameAnswer (fetch s) (fetch s') := by
  simp only [fetch, h.pc_eq, h.codeLen_eq, h.params_eq, h.code_eq]
  split_ifs
  · exact .error _
  split
  · exact .ok ⟨rfl, h.map (·.setPc _)⟩
  all_goals exact .error _

theorem runMachine_same (code : Option (List Byte)) (startPc : Word) :
    SameButDeadStack (runMachine code startPc s) (runMachine code startPc s') := by
  simp only [runMachine, h.acceptsRun_eq]
  split_ifs
  · exact h.map fun u => { u with code := code.getD u.code, pc := startPc, cause := .none, status := .running }
  · exact h

/-- A command reads nothing of the stack: a reset draws it anew, a run leaves it. -/
theorem takeCommand_same (c : Command) : SameButDeadStack (takeCommand c s) (takeCommand c s') := by
  simp only [takeCommand]
  split_ifs
  · cases c with
    | reset stackCap storeCap code => exact h.reset_same stackCap storeCap code
    | run code startPc => exact runMachine_same h code startPc
  · exact h

/-- A step of the one state is answered by the same step of the other. -/
theorem step_same {t : State} (ht : step s = .next t) : ∃ t', step s' = .next t' ∧ SameButDeadStack t t' := by
  cases hc : s.commands with
  | cons c rest =>
    obtain rfl := Host.Outcome.next.inj (step_command hc ▸ ht)
    exact ⟨_, step_command (h.commands_eq.trans hc),
      takeCommand_same (h.map fun u => { u with commands := rest }) c⟩
  | nil =>
    have hc' := h.commands_eq.trans hc
    rcases step_no_command hc ht with ⟨hs, c, hf, rfl⟩ | ⟨hs, i, hf, hi⟩ | ⟨hs, r, hr, ha⟩
    · have hf' : fetch s' = .error c := (hf ▸ fetch_agree h).of_error
      exact ⟨_, step_fetch_error hc' (h.status_eq.trans hs) hf', h.raise_same c⟩
    · obtain ⟨⟨_, u'⟩, hf', rfl, hu⟩ := (hf ▸ fetch_agree h).of_ok
      rw [step_fetch_ok hc' (h.status_eq.trans hs) hf']
      exact exec_same hu i hi
    · rw [step_answer hc' (h.status_eq.trans hs) (h.answer?_eq.trans hr)]
      exact finish_same h (pushN_agree (h.map State.resume) r) ha

end

/-- Settles O57: a command, a fetch with its instruction, and the answer of the host each do the same on both
states. -/
theorem deadStackBytesAreNotObservable : Obligations.DeadStackBytesAreNotObservable :=
  fun _ _ _ h ht => step_same h ht

end Sys2Proof.Rules
end

section
/-! SUPPORT. A value on the stack is big-endian (20_memory.md R52), and a live stack with enough bytes is an operand
on top of some bytes in exactly one way (40_primitives.md R107). -/

namespace Sys2Proof.Machine

/-- The widths of the operands are whole bytes. -/
theorem eight_dvd_width : ∀ w ∈ [8, 16, 32, 64], 8 ∣ w := by decide

/-- Index j counts from the most significant byte, `extractLsb'` from the least. -/
theorem getElem?_bytesOf {w : Nat} (hw : 8 ∣ w) (v : BitVec w) {j : Nat} (hj : j < w / 8) :
    (bytesOf v)[j]? = some (v.extractLsb' (w - 8 - 8 * j) 8) := by
  have bit : 8 * (w / 8 - 1 - j) = w - 8 - 8 * j := by omega
  rw [bytesOf, List.getElem?_map, List.getElem?_reverse (by simpa using hj), List.length_range,
    List.getElem?_range (by omega), Option.map_some, bit]

/-- A live stack with enough bytes determines the operand on top and the bytes below it. -/
theorem State.live_eq_append_bytesOf_iff {w : Nat} (hw : 8 ∣ w) {s : State} (h : w / 8 ≤ s.sp.toNat)
    (pre : List Byte) (v : BitVec w) :
    s.live = pre ++ bytesOf v ↔
      pre = s.stackBytes 0 (s.sp.toNat - w / 8) ∧ v = ofBytes w (s.stackBytes (s.sp.toNat - w / 8) (w / 8)) := by
  have hsplit := s.live_split (w / 8) h
  constructor
  · intro hlive
    obtain ⟨hpre, htop⟩ := List.append_inj' (hlive.symm.trans hsplit) (by simp)
    exact ⟨hpre, by rw [← htop, ofBytes_bytesOf hw]⟩
  · rintro ⟨rfl, rfl⟩
    rw [bytesOf_ofBytes hw _ (by simp)]
    exact hsplit

end Sys2Proof.Machine

namespace Sys2Proof.Rules

open Sys2Proof.Machine

/-- Settles O6: the bytes in push order, read by index. -/
theorem stackValuesAreBigEndian : Obligations.StackValuesAreBigEndian := fun w hw v =>
  ⟨length_bytesOf v, fun _ hj => getElem?_bytesOf (eight_dvd_width w hw) v hj⟩

/-- Settles O8: the split is the top W/8 bytes read as a value, and what lies below them. -/
theorem liveStackSplits : Obligations.LiveStackSplits := by
  intro w hw s h
  have hsplit := State.live_eq_append_bytesOf_iff (eight_dvd_width w hw) h
  refine ⟨(_, _), (hsplit _ _).2 ⟨rfl, rfl⟩, fun x hx => ?_⟩
  obtain ⟨hpre, hv⟩ := (hsplit _ _).1 hx
  exact Prod.ext hpre hv

end Sys2Proof.Rules
end

section
/-! SUPPORT. Decoding and encoding under a well-formed opcode map (30_encoding.md R88): the map numbers the rows of the
table one to one, a row reads back the immediate bytes of its instruction, and it reads no other bytes as that
instruction. -/

namespace Sys2Proof.Laws.Encoding

/-- The lemmas of the single instructions, gathered into one over every instruction. -/
theorem row_reads_back : ∀ i : Instr, Statement i
  | .addU8 => addU8 | .addI8 => addI8 | .addU16 => addU16 | .addI16 => addI16 | .addU32 => addU32
  | .addI32 => addI32 | .addU64 => addU64 | .addI64 => addI64 | .addF => addF | .addD => addD | .subU8 => subU8
  | .subI8 => subI8 | .subU16 => subU16 | .subI16 => subI16 | .subU32 => subU32 | .subI32 => subI32
  | .subU64 => subU64 | .subI64 => subI64 | .subF => subF | .subD => subD | .mulU8 => mulU8 | .mulI8 => mulI8
  | .mulU16 => mulU16 | .mulI16 => mulI16 | .mulU32 => mulU32 | .mulI32 => mulI32 | .mulU64 => mulU64
  | .mulI64 => mulI64 | .mulF => mulF | .mulD => mulD | .divU8 => divU8 | .divI8 => divI8 | .divU16 => divU16
  | .divI16 => divI16 | .divU32 => divU32 | .divI32 => divI32 | .divU64 => divU64 | .divI64 => divI64
  | .divF => divF | .divD => divD | .modU8 => modU8 | .modI8 => modI8 | .modU16 => modU16 | .modI16 => modI16
  | .modU32 => modU32 | .modI32 => modI32 | .modU64 => modU64 | .modI64 => modI64 | .eqU8 => eqU8 | .eqI8 => eqI8
  | .eqU16 => eqU16 | .eqI16 => eqI16 | .eqU32 => eqU32 | .eqI32 => eqI32 | .eqU64 => eqU64 | .eqI64 => eqI64
  | .eqF => eqF | .eqD => eqD | .neqU8 => neqU8 | .neqI8 => neqI8 | .neqU16 => neqU16 | .neqI16 => neqI16
  | .neqU32 => neqU32 | .neqI32 => neqI32 | .neqU64 => neqU64 | .neqI64 => neqI64 | .neqF => neqF | .neqD => neqD
  | .ltU8 => ltU8 | .ltI8 => ltI8 | .ltU16 => ltU16 | .ltI16 => ltI16 | .ltU32 => ltU32 | .ltI32 => ltI32
  | .ltU64 => ltU64 | .ltI64 => ltI64 | .ltF => ltF | .ltD => ltD | .lteqU8 => lteqU8 | .lteqI8 => lteqI8
  | .lteqU16 => lteqU16 | .lteqI16 => lteqI16 | .lteqU32 => lteqU32 | .lteqI32 => lteqI32 | .lteqU64 => lteqU64
  | .lteqI64 => lteqI64 | .lteqF => lteqF | .lteqD => lteqD | .gtU8 => gtU8 | .gtI8 => gtI8 | .gtU16 => gtU16
  | .gtI16 => gtI16 | .gtU32 => gtU32 | .gtI32 => gtI32 | .gtU64 => gtU64 | .gtI64 => gtI64 | .gtF => gtF
  | .gtD => gtD | .gteqU8 => gteqU8 | .gteqI8 => gteqI8 | .gteqU16 => gteqU16 | .gteqI16 => gteqI16
  | .gteqU32 => gteqU32 | .gteqI32 => gteqI32 | .gteqU64 => gteqU64 | .gteqI64 => gteqI64 | .gteqF => gteqF
  | .gteqD => gteqD | .logicalAnd => logicalAnd | .logicalOr => logicalOr | .logicalXor => logicalXor
  | .logicalNot => logicalNot | .andU8 => andU8 | .andU16 => andU16 | .andU32 => andU32 | .andU64 => andU64
  | .orU8 => orU8 | .orU16 => orU16 | .orU32 => orU32 | .orU64 => orU64 | .xorU8 => xorU8 | .xorU16 => xorU16
  | .xorU32 => xorU32 | .xorU64 => xorU64 | .notU8 => notU8 | .notU16 => notU16 | .notU32 => notU32
  | .notU64 => notU64 | .lshftU8 => lshftU8 | .lshftU16 => lshftU16 | .lshftU32 => lshftU32
  | .lshftU64 => lshftU64 | .rshftU8 => rshftU8 | .rshftU16 => rshftU16 | .rshftU32 => rshftU32
  | .rshftU64 => rshftU64 | .jmpU8 => jmpU8 | .jmpU16 => jmpU16 | .jmpU32 => jmpU32 | .jmpU64 => jmpU64
  | .jmpifU8 => jmpifU8 | .jmpifU16 => jmpifU16 | .jmpifU32 => jmpifU32 | .jmpifU64 => jmpifU64
  | .pushU8 v => pushU8 v | .pushU16 v => pushU16 v | .pushU32 v => pushU32 v | .pushU64 v => pushU64 v
  | .popU8 => popU8 | .popU16 => popU16 | .popU32 => popU32 | .popU64 => popU64 | .loadU8 => loadU8
  | .loadU16 => loadU16 | .loadU32 => loadU32 | .loadU64 => loadU64 | .storeU8 => storeU8 | .storeU16 => storeU16
  | .storeU32 => storeU32 | .storeU64 => storeU64 | .callU8 => callU8 | .callU16 => callU16 | .callU32 => callU32
  | .callU64 => callU64 | .retU8 => retU8 | .retU16 => retU16 | .retU32 => retU32 | .retU64 => retU64
  | .argc => argc | .arg => arg | .halt => halt | .syscall => syscall

end Sys2Proof.Laws.Encoding

namespace Sys2Proof

open Sys2Proof.Machine (bytesOf bytesOf_ofBytes length_bytesOf)

/-! ### The opcode map -/

theorem OpMap.wellFormed_iff (m : List Byte) : OpMap.wellFormed m = true ↔
    m.length = numInstrs ∧ (∀ b ∈ m, 1 ≤ b.toNat ∧ b.toNat ≤ 0xAC) ∧ m.Nodup := by
  simp [OpMap.wellFormed, and_assoc]

/-- No byte stands twice in a well-formed map, so the lookup of a byte finds its one place. -/
theorem OpMap.idxOf?_eq_some_iff {m : List Byte} (hm : OpMap.wellFormed m = true) {op : Byte} {k : Nat} :
    m.idxOf? op = some k ↔ m[k]? = some op := by
  obtain ⟨-, -, hnodup⟩ := (OpMap.wellFormed_iff m).1 hm
  rw [List.idxOf?_eq_some_iff, List.getElem?_eq_some_iff]
  constructor
  · rintro ⟨hk, hop, -⟩
    exact ⟨hk, hop⟩
  · rintro ⟨hk, hop⟩
    exact ⟨hk, hop, fun j hj hop' => hj.ne (hnodup.getElem_inj_iff.1 (hop'.trans hop.symm))⟩

theorem rowOf_lt (i : Instr) : rowOf i < numInstrs := by
  obtain ⟨row, hrow, -⟩ := Laws.Encoding.row_reads_back i
  exact (List.getElem?_eq_some_iff.1 hrow).1

/-- The byte that `encode` writes first is the map's byte of the instruction. -/
theorem OpMap.getElem?_rowOf {m : List Byte} (hm : OpMap.wellFormed m = true) (i : Instr) :
    m[rowOf i]? = some (m.getD (rowOf i) 0) := by
  obtain ⟨hlen, -, -⟩ := (OpMap.wellFormed_iff m).1 hm
  have hi : rowOf i < m.length := hlen ▸ rowOf_lt i
  rw [List.getD_eq_getElem?_getD, List.getElem?_eq_getElem hi, Option.getD_some]

/-! ### The rows of the table -/

/-- The number of immediate bytes of a row's format (30_encoding.md R81). -/
def Row.immLength : Row → Nat
  | .plain _ => 0
  | .push8 => 1
  | .push16 => 2
  | .push32 => 4
  | .push64 => 8

/-- The instructions a row reads have the place k, and that of a plain row has no immediate. -/
def Row.standsAt (k : Nat) : Row → Bool
  | .plain i => rowOf i == k && (immBytes i).isEmpty
  | .push8 => rowOf (.pushU8 0) == k
  | .push16 => rowOf (.pushU16 0) == k
  | .push32 => rowOf (.pushU32 0) == k
  | .push64 => rowOf (.pushU64 0) == k

theorem rows_standsAt {k : Nat} {row : Row} (h : rows[k]? = some row) : row.standsAt k = true := by
  have table : ∀ p ∈ rows.zipIdx, p.1.standsAt p.2 = true := by decide +kernel
  exact table (row, k) (List.mk_mem_zipIdx_iff_getElem?.2 h)

/-- What the reader of an immediate takes off the front are the bytes of the immediate. -/
theorem readImm_ok {w : Nat} (hw : 8 ∣ w) {make : BitVec w → Instr} {bs rest : List Byte} {i : Instr}
    (h : readImm w make bs = .ok (i, rest)) : ∃ v, i = make v ∧ bs = bytesOf v ++ rest := by
  unfold readImm at h
  split_ifs at h with hlen
  obtain ⟨rfl, rfl⟩ := Prod.mk.inj (Except.ok.inj h)
  refine ⟨_, rfl, ?_⟩
  rw [bytesOf_ofBytes hw _ (List.length_take_of_le (not_lt.1 hlen)), List.take_append_drop]

/-- What the row at place k reads: an instruction of that place, from its immediate bytes. -/
theorem readRow_ok {k : Nat} {row : Row} (hrow : row.standsAt k = true) {bs rest : List Byte} {i : Instr}
    (h : readRow row bs = .ok (i, rest)) :
    rowOf i = k ∧ bs = immBytes i ++ rest ∧ (immBytes i).length = row.immLength := by
  cases row with
  | plain j =>
    obtain ⟨rfl, rfl⟩ := Prod.mk.inj (Except.ok.inj h)
    obtain ⟨hk, himm⟩ : rowOf j = k ∧ immBytes j = [] := by simpa [Row.standsAt] using hrow
    simp [hk, himm, Row.immLength]
  | push8 | push16 | push32 | push64 =>
    obtain ⟨v, rfl, rfl⟩ := readImm_ok (by decide) h
    exact ⟨beq_iff_eq.1 hrow, rfl, length_bytesOf v⟩

/-! ### The decoder and the encoder -/

/-- The decoder answers what the row of the first byte's place reads from the bytes after it. -/
theorem decode_eq_ok_iff {m : List Byte} (hm : OpMap.wellFormed m = true) {bs : List Byte} {x : Instr × List Byte} :
    decode m bs = .ok x ↔
      ∃ (op : Byte) (tail : List Byte) (k : Nat) (row : Row),
        bs = op :: tail ∧ m[k]? = some op ∧ rows[k]? = some row ∧ readRow row tail = .ok x := by
  constructor
  · intro h
    cases bs with
    | nil => cases h
    | cons op tail =>
      simp only [decode] at h
      split at h
      next => cases h
      next k hk =>
        split at h
        next => cases h
        next row hrow => exact ⟨op, tail, k, row, rfl, (OpMap.idxOf?_eq_some_iff hm).1 hk, hrow, h⟩
  · rintro ⟨op, tail, k, row, rfl, hop, hrow, hread⟩
    simp only [decode, (OpMap.idxOf?_eq_some_iff hm).2 hop, hrow, hread]

theorem decode_cons_of_notMem {m : List Byte} {b : Byte} (hb : b ∉ m) (bs : List Byte) :
    decode m (b :: bs) = .error (.invalidOpcode b) := by
  simp only [decode, List.idxOf?_eq_none_iff.2 hb]

theorem length_encode (m : List Byte) (i : Instr) : (encode m i).length = lengthOf i := by
  rw [encode, lengthOf, List.length_cons, Nat.add_comm]

/-- Under a well-formed map the first byte of an encoding names one row. -/
theorem rowOf_eq_of_head?_encode_eq {m : List Byte} (hm : OpMap.wellFormed m = true) {i j : Instr}
    (h : (encode m i).head? = (encode m j).head?) : rowOf i = rowOf j := by
  have hop : m.getD (rowOf i) 0 = m.getD (rowOf j) 0 := Option.some.inj h
  have hi := (OpMap.idxOf?_eq_some_iff hm).2 (OpMap.getElem?_rowOf hm i)
  have hj := (OpMap.idxOf?_eq_some_iff hm).2 (OpMap.getElem?_rowOf hm j)
  rw [hop, hj] at hi
  exact (Option.some.inj hi).symm

/-- Two instructions of one row have one length, that of the row's format. -/
theorem lengthOf_eq_of_rowOf_eq {i j : Instr} (h : rowOf i = rowOf j) : lengthOf i = lengthOf j := by
  obtain ⟨row, hrow, hi⟩ := Laws.Encoding.row_reads_back i
  obtain ⟨row', hrow', hj⟩ := Laws.Encoding.row_reads_back j
  obtain rfl : row = row' := Option.some.inj (hrow.symm.trans (h ▸ hrow'))
  obtain ⟨-, -, hleni⟩ := readRow_ok (rows_standsAt hrow) (hi [])
  obtain ⟨-, -, hlenj⟩ := readRow_ok (rows_standsAt hrow) (hj [])
  rw [lengthOf, lengthOf, hleni, hlenj]

/-! ### The default map -/

theorem defaultOpmap_wellFormed : OpMap.wellFormed defaultOpmap = true := Machine.reset_opmap_wellFormed

theorem mem_defaultOpmap_iff (b : Byte) : b ∈ defaultOpmap ↔ 1 ≤ b.toNat ∧ b.toNat ≤ 0xAC := by
  constructor
  · obtain ⟨-, hrange, -⟩ := (OpMap.wellFormed_iff _).1 defaultOpmap_wellFormed
    exact hrange b
  · rintro ⟨h1, h2⟩
    refine List.mem_map.2 ⟨b.toNat - 1, List.mem_range.2 (by unfold numInstrs; omega), ?_⟩
    rw [Nat.sub_add_cancel h1, BitVec.ofNat_toNat, BitVec.setWidth_eq]

/-- The default opcode is the place plus 1 (30_encoding.md R87). -/
theorem encode_defaultOpmap (i : Instr) :
    encode defaultOpmap i = BitVec.ofNat 8 (rowOf i + 1) :: immBytes i := by
  simp [encode, defaultOpmap, rowOf_lt i]

end Sys2Proof

namespace Sys2Proof.Rules

open Sys2Proof.Machine

/-- Settles O1: the map leads the first byte to the instruction's row, which reads the immediate bytes back. -/
theorem decodeReadsBackEncode : Obligations.DecodeReadsBackEncode := by
  intro m i rest hm _
  obtain ⟨row, hrow, hread⟩ := Laws.Encoding.row_reads_back i
  exact (decode_eq_ok_iff hm).2 ⟨_, _, rowOf i, row, rfl, OpMap.getElem?_rowOf hm i, hrow, hread rest⟩

/-- Settles O2: the row of the first byte stands at the place of the instruction it reads. -/
theorem decodedBytesAreTheEncoding : Obligations.DecodedBytesAreTheEncoding := by
  intro m bs rest i hm h
  obtain ⟨op, tail, k, row, rfl, hop, hrow, hread⟩ := (decode_eq_ok_iff hm).1 h
  obtain ⟨rfl, rfl, -⟩ := readRow_ok (rows_standsAt hrow) hread
  rw [OpMap.getElem?_rowOf hm] at hop
  rw [encode, Option.some.inj hop, List.cons_append]

/-- Settles O4: the lookup of such a byte finds no place, and the default map is the range of the table. -/
theorem bytesOutsideTheMapAreInvalid : Obligations.BytesOutsideTheMapAreInvalid :=
  ⟨fun _ bs _ _ hb => decode_cons_of_notMem hb bs, defaultOpmap_wellFormed, mem_defaultOpmap_iff⟩

/-- Settles O3: the first byte names the row, and the row's format the length. -/
theorem lengthIsSetByTheOpcode : Obligations.LengthIsSetByTheOpcode := by
  refine ⟨length_encode, fun m i j hm h => lengthOf_eq_of_rowOf_eq (rowOf_eq_of_head?_encode_eq hm h),
    fun _ => rfl, fun _ => rfl, fun _ => rfl, fun _ => rfl, fun i h8 h16 h32 h64 => ?_⟩
  cases i with
  | pushU8 v => exact absurd rfl (h8 v)
  | pushU16 v => exact absurd rfl (h16 v)
  | pushU32 v => exact absurd rfl (h32 v)
  | pushU64 v => exact absurd rfl (h64 v)
  | _ => rfl

/-- Under the default map the place plus 1 and the immediate bytes decode to the instruction. -/
theorem decode_defaultOpmap {i : Instr} {bs : List Byte}
    (h : BitVec.ofNat 8 (rowOf i + 1) :: immBytes i = bs) : decode defaultOpmap bs = .ok (i, []) := by
  rw [← h, ← encode_defaultOpmap, ← List.append_nil (encode _ _)]
  exact decodeReadsBackEncode defaultOpmap i [] defaultOpmap_wellFormed rfl

/-- Settles O5: each word is the default opcode of its instruction and the immediate bytes. -/
theorem writtenWordsDecode : Obligations.WrittenWordsDecode := by
  refine ⟨?_, ?_, ?_, ?_, ?_, ?_, ?_, ?_, ?_, ?_, ?_⟩ <;> exact decode_defaultOpmap (by decide)

end Sys2Proof.Rules
end

section
/-! SUPPORT. The codec unit, and pushing and popping (spec 40_primitives.md R100 to R107, R113): the codec functions undo
each other, a pop undoes a push, and the byte loops are the single-check forms. -/

namespace Sys2Proof.Machine

/-! ### The codec unit -/

theorem ser32_deser32 (b0 b1 b2 b3 : Byte) : ser32 (deser32 b0 b1 b2 b3) = [b0, b1, b2, b3] := by
  rw [deser32_eq_ofBytes, ser32_eq_bytesOf, bytesOf_ofBytes (by decide) _ rfl]

theorem ser64_deser64 (b0 b1 b2 b3 b4 b5 b6 b7 : Byte) :
    ser64 (deser64 b0 b1 b2 b3 b4 b5 b6 b7) = [b0, b1, b2, b3, b4, b5, b6, b7] := by
  rw [deser64_eq_ofBytes, ser64_eq_bytesOf, bytesOf_ofBytes (by decide) _ rfl]

/-! ### A pop after a push -/

/-- With room for it a pushed value is popped again, and no byte below the old `sp` was stored to. -/
theorem pushN_popN {w : Nat} (hw : 8 ∣ w) (s : State) (v : BitVec w)
    (hroom : s.sp.toNat + w / 8 ≤ s.params.stackCap) (hcap : s.params.stackCap < 2 ^ 64) :
    ∃ t u, pushN v s = .ok t ∧ popN w t = .ok (v, u) ∧ u.sp = s.sp ∧
      ∀ k, k < s.sp.toNat → u.stackByte k = s.stackByte k := by
  obtain ⟨t, hpush, hlive, -, hframe⟩ :=
    pushN_live v (s := s) rfl (by rwa [State.length_live]) (by rw [State.length_live]; omega)
  rw [State.length_live] at hframe
  exact ⟨t, _, hpush, popN_live hw hlive, by simp, fun k hk => hframe.stackByte (.inl hk)⟩

/-! ### The loops -/

theorem pushBytes_nil {s : State} (h : s.sp.toNat ≤ s.params.stackCap) : pushBytes [] s = .ok s := by
  rw [pushBytes, if_neg (by simpa using h)]
  simp [Memory.writeBytes, State.setSp, State.setStack]

/-- The check for all the bytes is the check for the first and then for the others. -/
theorem pushBytes_cons (b : Byte) (bs : List Byte) {s : State} (hcap : s.params.stackCap < 2 ^ 64) :
    pushBytes (b :: bs) s = push1 b s >>= pushBytes bs := by
  by_cases hfull : s.params.stackCap < s.sp.toNat + 1
  · rw [pushBytes_overflow (by rw [List.length_cons]; omega), push1, pushBytes_overflow hfull]
    rfl
  · have hsp : (s.sp + BitVec.ofNat 64 1).toNat = s.sp.toNat + 1 := by
      rw [BitVec.toNat_add, BitVec.toNat_ofNat]
      omega
    have hadd : s.sp + BitVec.ofNat 64 (bs.length + 1) = s.sp + BitVec.ofNat 64 1 + BitVec.ofNat 64 bs.length := by
      rw [BitVec.add_assoc, ← BitVec.ofNat_add, Nat.add_comm]
    rw [push1, pushBytes.eq_def [b], List.length_singleton, if_neg hfull]
    simp only [bind, Except.bind, pushBytes, List.length_cons, State.setSp_sp, State.setSp_params,
      State.setStack_params, hsp, hadd, Nat.add_assoc, Nat.add_comm 1]
    rfl

/-- A push of one byte leaves `sp` within the capacity, which it does not change. -/
theorem push1_ok_sp_le {b : Byte} {s t : State} (hcap : s.params.stackCap < 2 ^ 64) (h : push1 b s = .ok t) :
    t.sp.toNat ≤ t.params.stackCap ∧ t.params.stackCap < 2 ^ 64 := by
  obtain ⟨hroom, rfl⟩ := pushBytes_ok h
  refine ⟨?_, hcap⟩
  simp only [List.length_singleton, State.setSp_sp, State.setSp_params, State.setStack_params, BitVec.toNat_add,
    BitVec.toNat_ofNat] at hroom ⊢
  omega

theorem pushLoop_eq_pushBytes (bs : List Byte) {s : State} (hsp : s.sp.toNat ≤ s.params.stackCap)
    (hcap : s.params.stackCap < 2 ^ 64) : pushLoop bs s = pushBytes bs s := by
  induction bs generalizing s with
  | nil => exact (pushBytes_nil hsp).symm
  | cons b bs ih =>
    rw [pushBytes_cons b bs hcap, pushLoop]
    cases ht : push1 b s with
    | error c => rfl
    | ok t =>
      obtain ⟨hsp', hcap'⟩ := push1_ok_sp_le hcap ht
      exact ih hsp' hcap'

theorem State.stackBytes_succ (s : State) (k n : Nat) :
    s.stackBytes k (n + 1) = s.stackBytes k n ++ [s.stackByte (k + n)] := by
  simp [State.stackBytes, List.range_succ]

theorem popLoop_eq_popBytes (n : Nat) (s : State) : popLoop n s = popBytes n s := by
  induction n generalizing s with
  | zero => simp [popLoop, popBytes, State.stackBytes, State.setSp]
  | succ n ih =>
    by_cases hempty : s.sp.toNat < 1
    · rw [popBytes_underflow (by omega), popLoop, pop1, if_pos hempty]
      rfl
    have hsp : (s.sp - 1).toNat = s.sp.toNat - 1 := toNat_sub_le (n := 1) (by omega)
    have hsub : s.sp - 1 - BitVec.ofNat 64 n = s.sp - BitVec.ofNat 64 (n + 1) := by
      rw [BitVec.ofNat_add, BitVec.add_comm, ← BitVec.sub_sub]
      rfl
    rw [popLoop, pop1, if_neg hempty]
    simp only [bind, Except.bind, ih]
    by_cases hfew : s.sp.toNat < n + 1
    · rw [popBytes_underflow hfew, popBytes_underflow (by rw [State.setSp_sp]; omega)]
    · have hidx : s.sp.toNat - (n + 1) + n = s.sp.toNat - 1 := by omega
      rw [popBytes, if_neg (by rw [State.setSp_sp]; omega), popBytes, if_neg hfew, State.stackBytes_succ, hidx,
        State.setSp_sp, hsp, hsub, Nat.sub_sub, Nat.add_comm 1 n]
      rfl

end Sys2Proof.Machine

namespace Sys2Proof.Rules

open Sys2Proof.Machine

/-- Settles O7: the byte k of a word is where R100 and R102 put it, and the bytes of a word are its digits. -/
theorem codecUnitRoundTrips : Obligations.CodecUnitRoundTrips :=
  ⟨fun _ => rfl, fun b0 b1 b2 b3 => ⟨rfl, ser32_deser32 b0 b1 b2 b3⟩,
    fun x => ⟨_, _, _, _, rfl, (deser32_eq_ofBytes _ _ _ _).trans (ofBytes_bytesOf (by decide) x)⟩,
    fun _ => rfl, fun b0 b1 b2 b3 b4 b5 b6 b7 => ⟨rfl, ser64_deser64 b0 b1 b2 b3 b4 b5 b6 b7⟩,
    fun x => ⟨_, _, _, _, _, _, _, _, rfl,
      (deser64_eq_ofBytes _ _ _ _ _ _ _ _).trans (ofBytes_bytesOf (by decide) x)⟩⟩

/-- Settles O9: the float forms are the integer forms of their width. -/
theorem pushThenPopGivesTheValueBack : Obligations.PushThenPopGivesTheValueBack := by
  refine ⟨fun w hw s v => pushN_popN (eight_dvd_width w hw) s v, fun s x hroom hcap => ?_, fun s x hroom hcap => ?_⟩
  · simpa only [pushF32_eq, popF32_eq] using pushN_popN (by decide) s x hroom hcap
  · simpa only [pushF64_eq, popF64_eq] using pushN_popN (by decide) s x hroom hcap

/-- Settles O10, by induction on the bytes and on their number. -/
theorem byteLoopsAreTheSingleCheck : Obligations.ByteLoopsAreTheSingleCheck :=
  ⟨fun bs _ hsp hcap => pushLoop_eq_pushBytes bs hsp hcap, popLoop_eq_popBytes⟩

end Sys2Proof.Rules
end

section
/-! SUPPORT. When a step is an instruction, when a fetch faults, and where there is no step (spec 40_primitives.md R111,
R112). -/

namespace Sys2Proof.Machine

/-! ### The fetch -/

theorem fetch_of_end {s : State} (h : s.codeLen ≤ s.pc.toNat) : fetch s = .error .codeOverrun := if_pos h

/-- A code byte at `pc` is one before the end of the code. -/
theorem pc_lt_codeLen_of_drop_ne_nil {s : State} (h : s.code.drop s.pc.toNat ≠ []) : s.pc.toNat < s.codeLen :=
  not_le.1 fun hle => h (List.drop_eq_nil_of_le hle)

theorem fetch_of_decode {s : State} {i : Instr} {rest : List Byte}
    (h : decode s.params.opmap (s.code.drop s.pc.toNat) = .ok (i, rest)) :
    fetch s = .ok (i, s.setPc (s.pc + 1)) := by
  have hpc : s.pc.toNat < s.codeLen := pc_lt_codeLen_of_drop_ne_nil fun hnil => by
    rw [hnil] at h
    cases h
  rw [fetch, if_neg (not_le.2 hpc), h]

theorem fetch_of_invalid {s : State} {b : Byte} {rest : List Byte} (hcode : s.code.drop s.pc.toNat = b :: rest)
    (hb : b ∉ s.params.opmap) : fetch s = .error .invalidOpcode := by
  have hpc : s.pc.toNat < s.codeLen := pc_lt_codeLen_of_drop_ne_nil (by simp [hcode])
  rw [fetch, if_neg (not_le.2 hpc), hcode, decode_cons_of_notMem hb]

/-! ### The step -/

/-- A fetch that fails is taken as a fault. -/
theorem step_faults_of_fetch_error {s : State} {c : Cause} (hrun : s.status = .running) (hcmd : s.commands = [])
    (h : fetch s = .error c) : ∃ t, step s = .next t ∧ FaultedFrom s t c :=
  ⟨_, step_fetch_error hcmd hrun h, raise_faultedFrom c s⟩

theorem finish_exists_next (s : State) (r : Except Cause State) : ∃ t, finish s r = .next t := by
  cases r with
  | ok t => exact ⟨t, finish_ok s t⟩
  | error c => exact ⟨raise c s, finish_error s c⟩

theorem exec_exists_next (i : Instr) (s : State) : ∃ t, exec i s = .next t := by
  obtain ⟨body, -, hbody⟩ := exec_shape i
  rw [hbody]
  exact finish_exists_next s (body s)

theorem step_exists_next_of_running {s : State} (hrun : s.status = .running) (hcmd : s.commands = []) :
    ∃ t, step s = .next t := by
  cases hf : fetch s with
  | error c => exact ⟨_, step_fetch_error hcmd hrun hf⟩
  | ok x => exact step_fetch_ok hcmd hrun hf ▸ exec_exists_next x.1 x.2

end Sys2Proof.Machine

namespace Sys2Proof.Rules

open Sys2Proof.Machine

/-- Settles O42: such bytes make the fetch answer the instruction. -/
theorem stepRunsTheDecodedInstruction : Obligations.StepRunsTheDecodedInstruction :=
  fun _ _ _ hrun hcmd hdecode => step_fetch_ok hcmd hrun (fetch_of_decode hdecode)

/-- Settles O43: in both cases the fetch fails, and the step raises its cause. -/
theorem fetchFaults : Obligations.FetchFaults := fun _ hrun hcmd =>
  ⟨fun hend => step_faults_of_fetch_error hrun hcmd (fetch_of_end hend),
    fun _ _ _ hcode hb => step_faults_of_fetch_error hrun hcmd (fetch_of_invalid hcode hb)⟩

/-- Settles O44: with no command waiting the step acts by the status, and these have no action. -/
theorem stoppedMachineTakesNoStep : Obligations.StoppedMachineTakesNoStep := by
  intro s hcmd
  refine ⟨fun h => ?_, fun h => ?_, fun h => ?_⟩ <;> simp only [step, hcmd, h]

/-- Settles O45: an instruction is `finish` of its body, which answers a next state whatever the body answers. -/
theorem everyInstructionTakesAStep : Obligations.EveryInstructionTakesAStep :=
  ⟨exec_exists_next, fun _ => step_exists_next_of_running⟩

end Sys2Proof.Rules
end

section
/-! SUPPORT. Rounding to nearest with ties to even, on magnitudes (spec 40_primitives.md R118): counted in units, the
magnitude patterns rise strictly, so a quotient lies between two neighbours, and `roundMag` takes the nearer. -/

namespace Sys2Proof.Machine

/-! ### The number of units of a magnitude -/

/-- The units of a magnitude pattern, by its exponent and its fraction. Unlike `unpack` it takes every natural number, so
that a magnitude that is too large has a neighbour too. -/
def magUnits (f p : Nat) : Nat := if p / 2 ^ f = 0 then p % 2 ^ f else (2 ^ f + p % 2 ^ f) * 2 ^ (p / 2 ^ f - 1)

/-- A significand m at a shift s. The significand 2^(f+1), the one past the greatest, is the least of the next shift. -/
theorem magUnits_of_significand {f s m : Nat} (hs : s = 0 ∨ 2 ^ f ≤ m) (hm : m ≤ 2 ^ (f + 1)) :
    magUnits f (s * 2 ^ f + m) = m * 2 ^ s := by
  have hpos : 0 < 2 ^ f := by positivity
  rw [pow_succ] at hm
  have fields : ∀ e r, r < 2 ^ f → (r + 2 ^ f * e) / 2 ^ f = e ∧ (r + 2 ^ f * e) % 2 ^ f = r := fun e r hr =>
    ⟨by rw [Nat.add_mul_div_left _ _ hpos, Nat.div_eq_of_lt hr, Nat.zero_add],
      by rw [Nat.add_mul_mod_self_left, Nat.mod_eq_of_lt hr]⟩
  rcases lt_or_ge m (2 ^ f) with hlt | hge
  · obtain rfl : s = 0 := hs.resolve_right (not_le.2 hlt)
    simp [magUnits, Nat.div_eq_of_lt hlt, Nat.mod_eq_of_lt hlt]
  obtain ⟨r, rfl⟩ := Nat.exists_eq_add_of_le hge
  rcases lt_or_ge r (2 ^ f) with hr | hr
  · obtain ⟨hdiv, hmod⟩ := fields (s + 1) r hr
    rw [show s * 2 ^ f + (2 ^ f + r) = r + 2 ^ f * (s + 1) by ring, magUnits, hdiv, hmod, if_neg (by omega),
      Nat.add_sub_cancel]
  · obtain rfl : r = 2 ^ f := by omega
    obtain ⟨hdiv, hmod⟩ := fields (s + 2) 0 hpos
    rw [show s * 2 ^ f + (2 ^ f + 2 ^ f) = 0 + 2 ^ f * (s + 2) by ring, magUnits, hdiv, hmod, if_neg (by omega),
      show s + 2 - 1 = s + 1 by omega]
    ring

theorem exists_significand (f p : Nat) :
    ∃ s m, p = s * 2 ^ f + m ∧ (s = 0 ∨ 2 ^ f ≤ m) ∧ m < 2 ^ (f + 1) := by
  have hdecomp := Nat.div_add_mod p (2 ^ f)
  have hmod := Nat.mod_lt p (show 0 < 2 ^ f by positivity)
  rw [pow_succ]
  cases he : p / 2 ^ f with
  | zero =>
    rw [he] at hdecomp
    exact ⟨0, p, by omega, .inl rfl, by omega⟩
  | succ s =>
    refine ⟨s, 2 ^ f + p % 2 ^ f, ?_, .inr (by omega), by omega⟩
    calc p = 2 ^ f * (s + 1) + p % 2 ^ f := by rw [← he, hdecomp]
      _ = _ := by ring

/-- Neighbours differ by one unit of the significand. -/
theorem magUnits_strictMono (f : Nat) : StrictMono (magUnits f) := by
  refine strictMono_nat_of_lt_succ fun p => ?_
  obtain ⟨s, m, rfl, hs, hm⟩ := exists_significand f p
  rw [magUnits_of_significand hs hm.le, Nat.add_assoc, magUnits_of_significand (hs.imp_right (by omega)) hm]
  exact Nat.mul_lt_mul_of_pos_right (Nat.lt_succ_self m) (by positivity)

/-! ### The nearest magnitude -/

/-- No magnitude is nearer to Q than P, and if another is as near then P is even. -/
def IsNearest (f : Nat) (Q : ℚ) (P : Nat) : Prop :=
  ∀ z : Nat, |(magUnits f P : ℚ) - Q| ≤ |(magUnits f z : ℚ) - Q| ∧
    (|(magUnits f P : ℚ) - Q| = |(magUnits f z : ℚ) - Q| → z = P ∨ P % 2 = 0)

/-- Of the neighbours around Q the lower is nearest if it is the nearer one, or even and as near. -/
theorem isNearest_lower {f p : Nat} {Q : ℚ} (hlo : (magUnits f p : ℚ) ≤ Q) (hhi : Q < magUnits f (p + 1))
    (hnear : Q - magUnits f p ≤ magUnits f (p + 1) - Q)
    (htie : Q - magUnits f p = magUnits f (p + 1) - Q → p % 2 = 0) : IsNearest f Q p := by
  intro z
  rw [abs_sub_comm, abs_of_nonneg (sub_nonneg.2 hlo)]
  rcases Nat.lt_or_ge p z with hz | hz
  · have hu : (magUnits f (p + 1) : ℚ) ≤ magUnits f z := by exact_mod_cast (magUnits_strictMono f).monotone hz
    rw [abs_of_nonneg (by linarith)]
    exact ⟨by linarith, fun heq => .inr (htie (by linarith))⟩
  · have hu : (magUnits f z : ℚ) ≤ magUnits f p := by exact_mod_cast (magUnits_strictMono f).monotone hz
    rw [abs_sub_comm, abs_of_nonneg (by linarith)]
    refine ⟨by linarith, fun heq => .inl ((magUnits_strictMono f).injective ?_)⟩
    exact_mod_cast (show (magUnits f z : ℚ) = magUnits f p by linarith)

/-- As `isNearest_lower`, for the upper one. -/
theorem isNearest_upper {f p : Nat} {Q : ℚ} (hhi : Q < magUnits f (p + 1))
    (hnear : magUnits f (p + 1) - Q ≤ Q - magUnits f p)
    (htie : magUnits f (p + 1) - Q = Q - magUnits f p → (p + 1) % 2 = 0) : IsNearest f Q (p + 1) := by
  intro z
  rw [abs_of_nonneg (sub_nonneg.2 hhi.le)]
  rcases Nat.lt_or_ge p z with hz | hz
  · have hu : (magUnits f (p + 1) : ℚ) ≤ magUnits f z := by exact_mod_cast (magUnits_strictMono f).monotone hz
    rw [abs_of_nonneg (by linarith)]
    refine ⟨by linarith, fun heq => .inl ((magUnits_strictMono f).injective ?_)⟩
    exact_mod_cast (show (magUnits f z : ℚ) = magUnits f (p + 1) by linarith)
  · have hu : (magUnits f z : ℚ) ≤ magUnits f p := by exact_mod_cast (magUnits_strictMono f).monotone hz
    rw [abs_sub_comm, abs_of_nonneg (by linarith)]
    exact ⟨by linarith, fun heq => .inr (htie (by linarith))⟩

/-- The midpoint of i and i + 1 parts what is nearest to Q: for odd i the midpoint itself belongs above. -/
theorem IsNearest.le_odd_iff {f i P : Nat} {Q : ℚ} (h : IsNearest f Q P) (hodd : i % 2 = 1) :
    P ≤ i ↔ 2 * Q < magUnits f i + magUnits f (i + 1) := by
  have hstep : (magUnits f i : ℚ) < magUnits f (i + 1) := by
    exact_mod_cast magUnits_strictMono f (Nat.lt_succ_self i)
  constructor
  · intro hP
    have hu : (magUnits f P : ℚ) ≤ magUnits f i := by exact_mod_cast (magUnits_strictMono f).monotone hP
    obtain ⟨hnear, htie⟩ := h (i + 1)
    by_contra hQ
    rw [abs_sub_comm, abs_of_nonneg (by linarith)] at hnear htie
    have hdist : |(magUnits f (i + 1) : ℚ) - Q| ≤ Q - magUnits f i := abs_le.2 ⟨by linarith, by linarith⟩
    have hPi : P = i := (magUnits_strictMono f).injective (by
      exact_mod_cast (show (magUnits f P : ℚ) = magUnits f i by linarith))
    subst hPi
    rcases htie (by linarith) with heq | heven <;> omega
  · intro hQ
    by_contra hP
    have hu : (magUnits f (i + 1) : ℚ) ≤ magUnits f P := by
      exact_mod_cast (magUnits_strictMono f).monotone (not_le.1 hP)
    have hnear := (h i).1
    rw [abs_of_nonneg (by linarith)] at hnear
    have hdist : |(magUnits f i : ℚ) - Q| < magUnits f P - Q := abs_lt.2 ⟨by linarith, by linarith⟩
    linarith

/-! ### `roundMag` -/

/-- `roundMag` before a result that is too large becomes infinity. -/
def nearestMag (f num den : Nat) : Nat :=
  let shift := (num / den).log2 - f
  let d := den * 2 ^ shift
  shift * 2 ^ f + roundEven (num / d) (num % d) d

theorem roundMag_eq_min (fmt : FloatFormat) (num den : Nat) :
    roundMag fmt num den = min (nearestMag fmt.fracBits num den) fmt.infMag := rfl

/-- The leading f + 1 bits of a number: they are a significand at the shift that leaves them. -/
theorem leadingBits_significand (f n : Nat) :
    (n.log2 - f = 0 ∨ 2 ^ f ≤ n / 2 ^ (n.log2 - f)) ∧ n / 2 ^ (n.log2 - f) < 2 ^ (f + 1) := by
  have hub : n < 2 ^ (n.log2 + 1) := Nat.lt_log2_self
  rcases Nat.le_total n.log2 f with hle | hge
  · rw [Nat.sub_eq_zero_of_le hle, pow_zero, Nat.div_one]
    exact ⟨.inl rfl, hub.trans_le (Nat.pow_le_pow_right (by omega) (by omega))⟩
  · rw [Nat.le_div_iff_mul_le (by positivity), Nat.div_lt_iff_lt_mul (by positivity), ← pow_add, ← pow_add,
      show f + (n.log2 - f) = n.log2 by omega, show f + 1 + (n.log2 - f) = n.log2 + 1 by omega]
    refine ⟨?_, hub⟩
    rcases Nat.eq_zero_or_pos n with rfl | hpos
    · exact .inl (by simp)
    · exact .inr (Nat.log2_self_le hpos.ne')

/-- `roundEven` on a significand m at a shift s and a rest r: the neighbours are m and m + 1. -/
theorem roundEven_isNearest {f s m r den : Nat} (hf : 1 ≤ f) (hden : 0 < den) (hs : s = 0 ∨ 2 ^ f ≤ m)
    (hm : m < 2 ^ (f + 1)) (hr : r < den * 2 ^ s) :
    IsNearest f (((den * 2 ^ s * m + r : Nat) : ℚ) / den) (s * 2 ^ f + roundEven m r (den * 2 ^ s)) := by
  have hdenQ : (0 : ℚ) < den := by exact_mod_cast hden
  have hlo : (magUnits f (s * 2 ^ f + m) : ℚ) = m * 2 ^ s := by exact_mod_cast magUnits_of_significand hs hm.le
  have hhi : (magUnits f (s * 2 ^ f + m + 1) : ℚ) = (m + 1) * 2 ^ s := by
    exact_mod_cast magUnits_of_significand (m := m + 1) (hs.imp_right (by omega)) hm
  set Q : ℚ := ((den * 2 ^ s * m + r : Nat) : ℚ) / den with hQ
  have hbelow : Q - magUnits f (s * 2 ^ f + m) = (r : ℚ) / den := by
    rw [hQ, hlo]; push_cast; field_simp; ring
  have habove : (magUnits f (s * 2 ^ f + m + 1) : ℚ) - Q = ((den * 2 ^ s - r : ℕ) : ℚ) / den := by
    rw [hQ, hhi, Nat.cast_sub hr.le]; push_cast; field_simp; ring
  have hlt : Q < magUnits f (s * 2 ^ f + m + 1) :=
    sub_pos.1 (habove ▸ div_pos (by exact_mod_cast Nat.sub_pos_of_lt hr) hdenQ)
  have hle : (magUnits f (s * 2 ^ f + m) : ℚ) ≤ Q := sub_nonneg.1 (hbelow ▸ by positivity)
  have heven : s * 2 ^ f % 2 = 0 := by simp [Nat.mul_mod, Nat.pow_mod, Nat.zero_pow (show 0 < f from hf)]
  unfold roundEven
  split_ifs with hup
  · rw [← Nat.add_assoc]
    refine isNearest_upper hlt ?_ ?_ <;> rw [hbelow, habove]
    · rw [div_le_div_iff_of_pos_right hdenQ, Nat.cast_le]; omega
    · rw [div_left_inj' hdenQ.ne', Nat.cast_inj]; omega
  · refine isNearest_lower hle hlt ?_ ?_ <;> rw [hbelow, habove]
    · rw [div_le_div_iff_of_pos_right hdenQ, Nat.cast_le]; omega
    · rw [div_left_inj' hdenQ.ne', Nat.cast_inj]; omega

theorem nearestMag_isNearest {f : Nat} (hf : 1 ≤ f) (num : Nat) {den : Nat} (hden : 0 < den) :
    IsNearest f ((num : ℚ) / den) (nearestMag f num den) := by
  obtain ⟨hs, hm⟩ := leadingBits_significand f (num / den)
  rw [Nat.div_div_eq_div_mul] at hs hm
  have h := roundEven_isNearest hf hden hs hm (Nat.mod_lt num (by positivity))
  rwa [Nat.div_add_mod] at h

end Sys2Proof.Machine
end

section
/-! SUPPORT. The bit patterns of a format (spec 00_scope.md R10): a pattern is a sign and a magnitude, the model's reading
of it agrees with the reading as a rational number, and `roundMag` rounds as the statements about IEEE 754 ask. -/

namespace Sys2Proof.Machine

/-- What the formats of 00_scope.md R10 have in common and the proofs use: some exponent is neither the least nor the
greatest, and the significand has a last bit. -/
structure FloatFormat.Proper (fmt : FloatFormat) : Prop where
  exp : 2 ≤ fmt.expBits
  frac : 1 ≤ fmt.fracBits

theorem binary32_proper : binary32.Proper := ⟨by decide, by decide⟩

theorem binary64_proper : binary64.Proper := ⟨by decide, by decide⟩

/-! ### Sign and magnitude -/

/-- The sign that `unpack` reads. -/
def signOf (fmt : FloatFormat) (x : Nat) : Bool := decide (x / fmt.signBit % 2 = 1)

/-- A pattern without its sign. -/
def magOf (fmt : FloatFormat) (x : Nat) : Nat := x % fmt.signBit

variable {fmt : FloatFormat}

theorem FloatFormat.signBit_eq (fmt : FloatFormat) : fmt.signBit = 2 ^ fmt.fracBits * 2 ^ fmt.expBits := by
  rw [signBit, ← pow_add, Nat.add_comm]

theorem FloatFormat.signBit_pos (fmt : FloatFormat) : 0 < fmt.signBit := Nat.two_pow_pos _

theorem FloatFormat.infMag_lt_signBit (fmt : FloatFormat) : fmt.infMag < fmt.signBit := by
  have hexp := Nat.two_pow_pos fmt.expBits
  rw [signBit_eq, infMag, Nat.mul_comm]
  exact Nat.mul_lt_mul_of_pos_left (by omega) (by positivity)

theorem magOf_withSign (neg : Bool) {p : Nat} (hp : p < fmt.signBit) : magOf fmt (withSign fmt neg p) = p := by
  cases neg <;> simp [magOf, withSign, Nat.mod_eq_of_lt hp]

theorem signOf_withSign (neg : Bool) {p : Nat} (hp : p < fmt.signBit) : signOf fmt (withSign fmt neg p) = neg := by
  cases neg <;> simp [signOf, withSign, Nat.div_eq_of_lt hp, Nat.add_div_left _ fmt.signBit_pos]

theorem withSign_mod_two (hfmt : fmt.Proper) (neg : Bool) (p : Nat) : withSign fmt neg p % 2 = p % 2 := by
  have heven : 2 ∣ fmt.signBit := dvd_pow_self 2 (by have := hfmt.frac; omega)
  cases neg <;> simp [withSign, Nat.add_mod, Nat.mod_eq_zero_of_dvd heven]

/-! ### The greatest finite magnitude -/

theorem FloatFormat.Proper.infMag_odd_pred (hfmt : fmt.Proper) : (fmt.infMag - 1) % 2 = 1 ∧ 1 ≤ fmt.infMag := by
  have heven : 2 ∣ fmt.infMag := Dvd.dvd.mul_left (dvd_pow_self 2 (by have := hfmt.frac; omega)) _
  have hexp := Nat.pow_le_pow_right (show 0 < 2 by omega) hfmt.exp
  have hpos : 0 < fmt.infMag := Nat.mul_pos (by omega) (by positivity)
  omega

theorem FloatFormat.Proper.magUnits_infMag (hfmt : fmt.Proper) :
    magUnits fmt.fracBits fmt.infMag = 2 ^ (fmt.fracBits + 1) * 2 ^ (2 ^ fmt.expBits - 3) ∧
    magUnits fmt.fracBits (fmt.infMag - 1) = (2 ^ (fmt.fracBits + 1) - 1) * 2 ^ (2 ^ fmt.expBits - 3) := by
  have hexp := Nat.pow_le_pow_right (show 0 < 2 by omega) hfmt.exp
  have hfrac := Nat.one_le_two_pow (n := fmt.fracBits)
  have hsplit : fmt.infMag = (2 ^ fmt.expBits - 3) * 2 ^ fmt.fracBits + 2 ^ (fmt.fracBits + 1) := by
    rw [infMag, pow_succ, ← Nat.mul_comm 2, ← Nat.add_mul]
    congr 1
    omega
  rw [hsplit, Nat.add_sub_assoc Nat.one_le_two_pow]
  rw [pow_succ] at *
  exact ⟨magUnits_of_significand (.inr (by omega)) (by rw [pow_succ]),
    magUnits_of_significand (.inr (by omega)) (by rw [pow_succ]; omega)⟩

end Sys2Proof.Machine

namespace Sys2Proof.Rules

open Sys2Proof.Machine

variable {fmt : FloatFormat}

/-! ### The fields of a pattern -/

theorem signOf_eq_true_iff (fmt : FloatFormat) (x : Nat) : signOf fmt x = true ↔ signSet fmt x := decide_eq_true_iff

theorem expField_eq (fmt : FloatFormat) (x : Nat) : expField fmt x = magOf fmt x / 2 ^ fmt.fracBits := by
  rw [expField, magOf, FloatFormat.signBit_eq, Nat.mod_mul_right_div_self]

theorem fracField_eq (fmt : FloatFormat) (x : Nat) : fracField fmt x = magOf fmt x % 2 ^ fmt.fracBits := by
  rw [fracField, magOf, FloatFormat.signBit_eq, Nat.mod_mul_right_mod]

theorem isFinite_iff (fmt : FloatFormat) (x : Nat) : IsFinite fmt x ↔ magOf fmt x < fmt.infMag := by
  have hlt : magOf fmt x / 2 ^ fmt.fracBits < 2 ^ fmt.expBits :=
    Nat.div_lt_of_lt_mul (FloatFormat.signBit_eq fmt ▸ Nat.mod_lt x fmt.signBit_pos)
  rw [IsFinite, expField_eq, FloatFormat.infMag, ← Nat.div_lt_iff_lt_mul (by positivity)]
  omega

theorem isInf_of_magOf {x : Nat} (h : magOf fmt x = fmt.infMag) : IsInf fmt x := by
  rw [IsInf, expField_eq, fracField_eq, h, FloatFormat.infMag, Nat.mul_div_cancel _ (by positivity)]
  exact ⟨rfl, Nat.mul_mod_left _ _⟩

theorem signSet_withSign (neg : Bool) {p : Nat} (hp : p < fmt.signBit) :
    signSet fmt (withSign fmt neg p) ↔ neg = true := by
  rw [← signOf_eq_true_iff, signOf_withSign neg hp]

theorem pattern_withSign (neg : Bool) {p : Nat} (hp : p < fmt.signBit) : Pattern fmt (withSign fmt neg p) := by
  rw [Pattern, Nat.add_assoc, pow_add, pow_one]
  have hbit : fmt.signBit = 2 ^ (fmt.expBits + fmt.fracBits) := rfl
  cases neg <;> simp only [withSign, Bool.false_eq_true, if_false, if_true] <;> omega

/-- An infinity made by `withSign`. -/
theorem infOfSign_withSign {neg : Bool} {P : Prop} (h : neg = true ↔ P) :
    InfOfSign fmt P (withSign fmt neg fmt.infMag) :=
  have hlt := fmt.infMag_lt_signBit
  ⟨pattern_withSign neg hlt, isInf_of_magOf (magOf_withSign neg hlt), (signSet_withSign neg hlt).trans h⟩

/-! ### Units as rational numbers -/

/-- The least positive subnormal, one unit. -/
def unitValue (fmt : FloatFormat) : ℚ := 2 ^ (1 - bias fmt - (fmt.fracBits : Int))

theorem unitValue_pos (fmt : FloatFormat) : 0 < unitValue fmt := by
  unfold unitValue
  positivity

/-- 1.0 is 2^oneShift units. -/
theorem unitValue_mul_oneShift (hfmt : fmt.Proper) : unitValue fmt * 2 ^ fmt.oneShift = 1 := by
  have hexp := Nat.pow_le_pow_right (show 0 < 2 by omega) (show 1 ≤ fmt.expBits - 1 by have := hfmt.exp; omega)
  have hshift : (fmt.oneShift : Int) = bias fmt - 1 + fmt.fracBits := by
    rw [FloatFormat.oneShift, bias, Nat.cast_add, Nat.cast_sub (by omega)]
    push_cast
    ring
  rw [unitValue, ← zpow_natCast, ← zpow_add₀ two_ne_zero, hshift,
    show 1 - bias fmt - (fmt.fracBits : Int) + (bias fmt - 1 + fmt.fracBits) = 0 by ring, zpow_zero]

/-- A number with a sign. -/
def signed (neg : Bool) (q : ℚ) : ℚ := if neg then -q else q

theorem cast_signedUnits (neg : Bool) (u : Nat) : ((signedUnits neg u : Int) : ℚ) = signed neg u := by
  cases neg <;> simp [signedUnits, signed]

/-- The number that a pattern spells, in units. -/
theorem ratOf_eq {x : Nat} (hx : Pattern fmt x) :
    ratOf fmt x = signed (signOf fmt x) (magUnits fmt.fracBits (magOf fmt x)) * unitValue fmt := by
  have htop : x / fmt.signBit < 2 := by
    rw [Pattern, Nat.add_assoc, pow_add, Nat.mul_comm] at hx
    exact Nat.div_lt_of_lt_mul hx
  have hsign : ∀ q : ℚ, (-1) ^ (x / fmt.signBit) * q = signed (signOf fmt x) q := fun q => by
    rw [signed, signOf, Nat.mod_eq_of_lt htop]
    generalize x / fmt.signBit = k at htop
    interval_cases k <;> simp
  have hunits : (if expField fmt x = 0 then (fracField fmt x : ℚ) * 2 ^ (1 - bias fmt - (fmt.fracBits : Int))
      else ((2 ^ fmt.fracBits + fracField fmt x : Nat) : ℚ) *
        2 ^ ((expField fmt x : Int) - bias fmt - (fmt.fracBits : Int))) =
      magUnits fmt.fracBits (magOf fmt x) * unitValue fmt := by
    rw [magUnits, ← expField_eq, ← fracField_eq, unitValue]
    split_ifs with he
    · rfl
    · have hexp : (expField fmt x : Int) - bias fmt - fmt.fracBits =
          ((expField fmt x - 1 : Nat) : Int) + (1 - bias fmt - fmt.fracBits) := by
        rw [Nat.cast_sub (by omega)]; push_cast; ring
      rw [hexp, zpow_add₀ two_ne_zero, zpow_natCast]
      push_cast
      ring
  rw [ratOf, hunits]
  exact (hsign _).trans (by cases signOf fmt x <;> simp [signed])

/-- The midpoint between the greatest finite number and what would come after it, from which on a result is infinite. -/
theorem overflowBound_eq (hfmt : fmt.Proper) :
    ((2 : ℚ) - 2 ^ (-(fmt.fracBits : Int) - 1)) * 2 ^ bias fmt =
      (magUnits fmt.fracBits (fmt.infMag - 1) + magUnits fmt.fracBits fmt.infMag) / 2 * unitValue fmt := by
  obtain ⟨hinf, hpred⟩ := hfmt.magUnits_infMag
  have hexp := Nat.pow_le_pow_right (show 0 < 2 by omega) hfmt.exp
  have hbias : ((2 ^ fmt.expBits - 3 : Nat) : Int) = 2 * bias fmt - 1 := by
    have hpow : 2 ^ fmt.expBits = 2 * 2 ^ (fmt.expBits - 1) := by
      rw [← pow_succ', Nat.sub_add_cancel (by have := hfmt.exp; omega)]
    rw [bias, Nat.cast_sub (by omega), hpow]
    push_cast
    ring
  rw [hinf, hpred, Nat.cast_mul, Nat.cast_mul, Nat.cast_sub Nat.one_le_two_pow, unitValue]
  push_cast
  rw [← zpow_natCast 2 (2 ^ fmt.expBits - 3), hbias, ← zpow_natCast 2 (fmt.fracBits + 1)]
  push_cast
  have h2 : (2 : ℚ) ≠ 0 := two_ne_zero
  simp only [zpow_sub₀ h2, zpow_add₀ h2, zpow_neg, zpow_one, two_mul, zpow_natCast]
  field_simp
  ring

/-! ### Rounding -/

theorem abs_signed_sub_signed_same (neg : Bool) (a b : ℚ) : |signed neg a - signed neg b| = |a - b| := by
  cases neg
  · rfl
  · rw [signed, signed, if_pos rfl, if_pos rfl, ← abs_neg]
    congr 1
    ring

theorem abs_signed_not_sub_signed (neg : Bool) {a b : ℚ} (ha : 0 ≤ a) (hb : 0 ≤ b) :
    |signed (!neg) a - signed neg b| = a + b := by
  cases neg
  · simp only [signed, Bool.not_false, Bool.false_eq_true, if_true, if_false]
    rw [abs_of_nonpos (by linarith)]; ring
  · simp only [signed, Bool.not_true, Bool.false_eq_true, if_true, if_false]
    rw [abs_of_nonneg (by linarith)]; ring

/-- A nearest magnitude, taken with the sign of q, is nearest among the signed numbers. -/
theorem isNearest_signed {f P : Nat} {Q : ℚ} (h : IsNearest f Q P) (hQ : 0 ≤ Q) (neg n : Bool) (z : Nat) :
    |signed neg (magUnits f P) - signed neg Q| ≤ |signed n (magUnits f z) - signed neg Q| ∧
    (|signed neg (magUnits f P) - signed neg Q| = |signed n (magUnits f z) - signed neg Q| →
      signed n (magUnits f z) = signed neg (magUnits f P) ∨ P % 2 = 0) := by
  obtain ⟨hnear, htie⟩ := h z
  rw [abs_signed_sub_signed_same]
  by_cases hn : n = neg
  · subst hn
    rw [abs_signed_sub_signed_same]
    exact ⟨hnear, fun heq => (htie heq).imp_left fun hz => by rw [hz]⟩
  · obtain rfl : n = !neg := Bool.eq_not.2 hn
    have hz : (0 : ℚ) ≤ magUnits f z := Nat.cast_nonneg _
    have hfar : |(magUnits f z : ℚ) - Q| ≤ magUnits f z + Q := abs_le.2 ⟨by linarith, by linarith⟩
    rw [abs_signed_not_sub_signed neg hz hQ]
    refine ⟨hnear.trans hfar, fun heq => (htie (le_antisymm hnear (heq ▸ hfar))).imp_left fun hzP => ?_⟩
    subst hzP
    have hzero : (magUnits f z : ℚ) = 0 := by
      have hnear0 := (h 0).1
      rw [show magUnits f 0 = 0 by simp [magUnits], Nat.cast_zero, zero_sub, abs_neg, abs_of_nonneg hQ, heq] at hnear0
      linarith
    simp [signed, hzero]

/-- The nearest magnitude is finite exactly below the bound of overflow. -/
theorem lt_infMag_iff (hfmt : fmt.Proper) {Q : ℚ} {P : Nat} (h : IsNearest fmt.fracBits Q P) :
    P < fmt.infMag ↔ Q * unitValue fmt < (2 - 2 ^ (-(fmt.fracBits : Int) - 1)) * 2 ^ bias fmt := by
  obtain ⟨hodd, hpos⟩ := hfmt.infMag_odd_pred
  have hle := h.le_odd_iff hodd
  rw [Nat.sub_add_cancel hpos] at hle
  rw [overflowBound_eq hfmt, mul_lt_mul_iff_left₀ (unitValue_pos fmt), lt_div_iff₀ two_pos, mul_comm _ (2 : ℚ), ← hle]
  omega

/-- `roundMag` with a sign rounds Q units, given the magnitude of Q as a quotient. -/
theorem roundsTo_withSign (hfmt : fmt.Proper) {Q : ℚ} {neg : Bool} {negZero : Prop} {num den : Nat} (hden : 0 < den)
    (hQ : |Q| = (num : ℚ) / den) (hneg : neg = true ↔ Q < 0 ∨ (Q = 0 ∧ negZero)) :
    RoundsTo fmt (Q * unitValue fmt) negZero (withSign fmt neg (roundMag fmt num den)) := by
  have hunit := unitValue_pos fmt
  have hinf := fmt.infMag_lt_signBit
  have hnearest := nearestMag_isNearest hfmt.frac num hden
  rw [roundMag_eq_min]
  set P := nearestMag fmt.fracBits num den
  have hmin : min P fmt.infMag < fmt.signBit := (min_le_right _ _).trans_lt hinf
  have hsign : Q * unitValue fmt < 0 ∨ (Q * unitValue fmt = 0 ∧ negZero) ↔ neg = true := by
    simp [hneg, mul_neg_iff, hunit, hunit.ne', hunit.not_gt]
  have hsigned : Q = signed neg |Q| := by
    cases neg with
    | true => rw [signed, if_pos rfl, abs_of_nonpos ((hneg.1 rfl).elim le_of_lt fun h => h.1.le), neg_neg]
    | false => exact (abs_of_nonneg (not_lt.1 fun h => Bool.false_ne_true (hneg.2 (.inl h)))).symm
  have hfinite : |Q * unitValue fmt| < (2 - 2 ^ (-(fmt.fracBits : Int) - 1)) * 2 ^ bias fmt ↔ P < fmt.infMag := by
    rw [abs_mul, abs_of_pos hunit, hQ, lt_infMag_iff hfmt hnearest]
  refine ⟨pattern_withSign neg hmin, (signSet_withSign neg hmin).trans hsign.symm, fun hlt => ?_, fun hge => ?_⟩
  · have hP := hfinite.1 hlt
    have hPs := hP.trans hinf
    rw [min_eq_left hP.le]
    refine ⟨(isFinite_iff _ _).2 (by rwa [magOf_withSign neg hPs]), fun z hz _ => ?_⟩
    rw [ratOf_eq (pattern_withSign neg hPs), ratOf_eq hz, magOf_withSign neg hPs, signOf_withSign neg hPs, hsigned, hQ,
      ← sub_mul, ← sub_mul, abs_mul, abs_mul, abs_of_pos hunit, mul_le_mul_iff_left₀ hunit,
      mul_left_inj' hunit.ne', mul_left_inj' hunit.ne', withSign_mod_two hfmt]
    exact isNearest_signed hnearest (by positivity) neg _ _
  · rw [min_eq_right (not_lt.1 fun h => absurd (hfinite.2 h) (not_lt.2 hge))]
    exact isInf_of_magOf (magOf_withSign neg hinf)

/-- As `roundsTo_withSign`, where a zero has the sign too. -/
theorem roundsTo_signed (hfmt : fmt.Proper) (neg : Bool) (num : Nat) {den : Nat} (hden : 0 < den) :
    RoundsTo fmt (signed neg ((num : ℚ) / den) * unitValue fmt) (neg = true)
      (withSign fmt neg (roundMag fmt num den)) := by
  have hnonneg : 0 ≤ (num : ℚ) / den := by positivity
  cases neg with
  | false => exact roundsTo_withSign hfmt hden (abs_of_nonneg hnonneg) (by simp [signed, hnonneg.not_gt])
  | true =>
    refine roundsTo_withSign hfmt hden ((abs_neg _).trans (abs_of_nonneg hnonneg)) ?_
    simpa [signed] using hnonneg.lt_or_eq.imp_right Eq.symm

end Sys2Proof.Rules
end

section
/-! SUPPORT. The four operations of `FNUM` are those of IEEE 754 (spec 40_primitives.md R118): what a pattern spells is said
once, and each operation is then a case split over what its operands spell, in which two numbers alone need rounding. -/

namespace Sys2Proof.Rules

open Sys2Proof.Machine

variable {fmt : FloatFormat}

/-! ### What a pattern spells -/

/-- The pattern x spells the datum: its kind among those of the statements, its sign and its number. -/
inductive Spells (fmt : FloatFormat) (x : Nat) : FloatVal → Prop where
  | nan (isNan : IsNan fmt x) (notInf : ¬ IsInf fmt x) (notFinite : ¬ IsFinite fmt x) (notZero : ¬ IsZero fmt x) :
    Spells fmt x .nan
  | inf (n : Bool) (notNan : ¬ IsNan fmt x) (isInf : IsInf fmt x) (notFinite : ¬ IsFinite fmt x)
    (notZero : ¬ IsZero fmt x) (sign : signSet fmt x ↔ n = true) : Spells fmt x (.inf n)
  | fin (n : Bool) (u : Nat) (notNan : ¬ IsNan fmt x) (notInf : ¬ IsInf fmt x) (isFinite : IsFinite fmt x)
    (zero : IsZero fmt x ↔ u = 0) (sign : signSet fmt x ↔ n = true)
    (value : ratOf fmt x = signed n u * unitValue fmt) : Spells fmt x (.fin n u)

/-- The model's reading of a pattern, by its fields. -/
theorem unpack_eq (fmt : FloatFormat) (x : Nat) :
    unpack fmt x =
      if expField fmt x = 2 ^ fmt.expBits - 1 then
        if fracField fmt x = 0 then .inf (signOf fmt x) else .nan
      else .fin (signOf fmt x) (magUnits fmt.fracBits (magOf fmt x)) := by
  have hfields : unpack fmt x =
      if expField fmt x = 2 ^ fmt.expBits - 1 then
        if fracField fmt x = 0 then .inf (signOf fmt x) else .nan
      else if expField fmt x = 0 then .fin (signOf fmt x) (fracField fmt x)
      else .fin (signOf fmt x) ((2 ^ fmt.fracBits + fracField fmt x) * 2 ^ (expField fmt x - 1)) := rfl
  rw [hfields, magUnits, ← expField_eq, ← fracField_eq]
  congr 1
  split_ifs <;> rfl

theorem isZero_iff_magUnits (fmt : FloatFormat) (x : Nat) :
    IsZero fmt x ↔ magUnits fmt.fracBits (magOf fmt x) = 0 := by
  rw [magUnits, ← expField_eq, ← fracField_eq, IsZero]
  split_ifs with he <;> simp [he]

theorem spells_unpack (hfmt : fmt.Proper) {x : Nat} (hx : Pattern fmt x) : Spells fmt x (unpack fmt x) := by
  have hexp := Nat.pow_le_pow_right (show 0 < 2 by omega) hfmt.exp
  have hsign := (signOf_eq_true_iff fmt x).symm
  have hzero : IsZero fmt x → expField fmt x ≠ 2 ^ fmt.expBits - 1 := fun h => by rw [h.1]; omega
  rw [unpack_eq]
  split_ifs with he hf
  · exact .inf _ (fun h => h.2 hf) ⟨he, hf⟩ (fun h => h he) (fun h => hzero h he) hsign
  · exact .nan ⟨he, hf⟩ (fun h => hf h.2) (fun h => h he) (fun h => hzero h he)
  · exact .fin _ _ (fun h => he h.1) (fun h => he h.1) he (isZero_iff_magUnits fmt x) hsign (ratOf_eq hx)

theorem signsDiffer_iff {x y : Nat} {n m : Bool} (hx : signSet fmt x ↔ n = true) (hy : signSet fmt y ↔ m = true) :
    SignsDiffer fmt x y ↔ (n ^^ m) = true := by
  rw [SignsDiffer, hx, hy]
  cases n <;> cases m <;> simp

theorem roundMag_zero (fmt : FloatFormat) (den : Nat) : roundMag fmt 0 den = 0 := by
  simp [roundMag, roundEven]

/-! ### Addition and subtraction -/

theorem addVal_fin (fmt : FloatFormat) (n m : Bool) (u v : Nat) :
    addVal fmt (.fin n u) (.fin m v) =
      some (withSign fmt
        (if signedUnits n u + signedUnits m v = 0 then n && m else decide (signedUnits n u + signedUnits m v < 0))
        (roundMag fmt (signedUnits n u + signedUnits m v).natAbs 1)) := by
  simp only [addVal]
  split_ifs with h
  · rw [h, Int.natAbs_zero, roundMag_zero]
  · rfl

/-- The sum of two numbers of units is rounded, and is negative as IEEE 754 has it. -/
theorem roundsTo_of_addVal (hfmt : fmt.Proper) {n m : Bool} {u v r : Nat}
    (h : addVal fmt (.fin n u) (.fin m v) = some r) :
    RoundsTo fmt (signed n u * unitValue fmt + signed m v * unitValue fmt) (n = true ∧ m = true) r := by
  obtain rfl := Option.some.inj ((addVal_fin fmt n m u v).symm.trans h)
  rw [← cast_signedUnits, ← cast_signedUnits, ← add_mul, ← Int.cast_add]
  generalize signedUnits n u + signedUnits m v = sum
  refine roundsTo_withSign hfmt one_pos ?_ ?_
  · rw [Nat.cast_natAbs, Int.cast_abs, Nat.cast_one, div_one]
  · rw [Int.cast_lt_zero, Int.cast_eq_zero]
    split_ifs with hsum <;> simp [hsum]

theorem addsAsIeee (hfmt : fmt.Proper) : AddsAsIeee fmt (onNats fmt addVal) := by
  intro x y hx hy
  rw [onNats]
  have hx := spells_unpack hfmt hx
  have hy := spells_unpack hfmt hy
  generalize unpack fmt x = a at hx ⊢
  generalize unpack fmt y = b at hy ⊢
  cases hx with
  | nan => simp [addVal, *]
  | inf n _ _ _ _ hn =>
    cases hy with
    | nan => simp [addVal, *]
    | inf m _ _ _ _ hm =>
      by_cases hnm : n = m
      · subst hnm
        simp [addVal, signsDiffer_iff hn hm, infOfSign_withSign, *]
      · simp [addVal, signsDiffer_iff hn hm, *]
    | fin m v => simp [addVal, infOfSign_withSign, *]
  | fin n u _ _ _ _ hn hvx =>
    cases hy with
    | nan => simp [addVal, *]
    | inf m => simp [addVal, infOfSign_withSign, *]
    | fin m v _ _ _ _ hm hvy =>
      refine ⟨by simp [addVal_fin, *], fun r hr => ⟨by simp [*], by simp [*], fun _ _ => ?_⟩⟩
      rw [hvx, hvy, hn, hm]
      exact roundsTo_of_addVal hfmt hr

/-- A pattern with its sign changed, the pattern of `FloatVal.negate`. -/
def flipSign (fmt : FloatFormat) (y : Nat) : Nat := withSign fmt (!signOf fmt y) (magOf fmt y)

theorem magOf_lt (fmt : FloatFormat) (x : Nat) : magOf fmt x < fmt.signBit := Nat.mod_lt x fmt.signBit_pos

theorem magOf_flipSign (fmt : FloatFormat) (y : Nat) : magOf fmt (flipSign fmt y) = magOf fmt y :=
  magOf_withSign _ (magOf_lt fmt y)

theorem signOf_flipSign (fmt : FloatFormat) (y : Nat) : signOf fmt (flipSign fmt y) = !signOf fmt y :=
  signOf_withSign _ (magOf_lt fmt y)

theorem expField_flipSign (fmt : FloatFormat) (y : Nat) : expField fmt (flipSign fmt y) = expField fmt y := by
  rw [expField_eq, expField_eq, magOf_flipSign]

theorem fracField_flipSign (fmt : FloatFormat) (y : Nat) : fracField fmt (flipSign fmt y) = fracField fmt y := by
  rw [fracField_eq, fracField_eq, magOf_flipSign]

theorem signSet_flipSign (fmt : FloatFormat) (y : Nat) : signSet fmt (flipSign fmt y) ↔ ¬ signSet fmt y := by
  rw [← signOf_eq_true_iff, ← signOf_eq_true_iff, signOf_flipSign]
  simp

theorem pattern_flipSign (fmt : FloatFormat) (y : Nat) : Pattern fmt (flipSign fmt y) :=
  pattern_withSign _ (magOf_lt fmt y)

theorem signed_not (n : Bool) (q : ℚ) : signed (!n) q = -signed n q := by
  cases n <;> simp [signed]

theorem ratOf_flipSign {y : Nat} (hy : Pattern fmt y) : ratOf fmt (flipSign fmt y) = -ratOf fmt y := by
  rw [ratOf_eq (pattern_flipSign fmt y), ratOf_eq hy, magOf_flipSign, signOf_flipSign, signed_not, neg_mul]

theorem unpack_flipSign (fmt : FloatFormat) (y : Nat) : unpack fmt (flipSign fmt y) = (unpack fmt y).negate := by
  rw [unpack_eq, unpack_eq, expField_flipSign, fracField_flipSign, magOf_flipSign, signOf_flipSign]
  split_ifs <;> rfl

/-- Subtraction is the addition of the other sign, for the model and for IEEE 754. -/
theorem subtractsAsIeee (hfmt : fmt.Proper) : SubtractsAsIeee fmt (onNats fmt subVal) := by
  intro x y hx hy
  have hadd := addsAsIeee hfmt x (flipSign fmt y) hx (pattern_flipSign fmt y)
  have hdiffer : SignsDiffer fmt x (flipSign fmt y) ↔ ¬ SignsDiffer fmt x y := by
    rw [SignsDiffer, SignsDiffer, signSet_flipSign]
    tauto
  simp only [onNats, unpack_flipSign, IsNan, IsInf, IsFinite, expField_flipSign, fracField_flipSign, hdiffer,
    signSet_flipSign, ratOf_flipSign hy, ← sub_eq_add_neg] at hadd
  exact hadd

/-! ### Multiplication and division -/

theorem signed_mul_signed (n m : Bool) (a b : ℚ) : signed n a * signed m b = signed (n ^^ m) (a * b) := by
  cases n <;> cases m <;> simp [signed]

theorem signed_div_signed (n m : Bool) (a b : ℚ) : signed n a / signed m b = signed (n ^^ m) (a / b) := by
  cases n <;> cases m <;> simp [signed, neg_div, div_neg]

theorem signed_mul (n : Bool) (a b : ℚ) : signed n a * b = signed n (a * b) := by
  cases n <;> simp [signed]

theorem signed_zero (n : Bool) : signed n 0 = 0 := by
  cases n <;> simp [signed]

theorem mul_unitValue (hfmt : fmt.Proper) (q : ℚ) : q * unitValue fmt = q / 2 ^ fmt.oneShift :=
  eq_div_of_mul_eq (by positivity) (by rw [mul_assoc, unitValue_mul_oneShift hfmt, mul_one])

/-- The product of two numbers of units, in units. -/
theorem units_mul_units (hfmt : fmt.Proper) (n m : Bool) (u v : Nat) :
    signed n u * unitValue fmt * (signed m v * unitValue fmt) =
      signed (n ^^ m) (((u * v : Nat) : ℚ) / (2 ^ fmt.oneShift : Nat)) * unitValue fmt := by
  calc _ = signed n u * signed m v * unitValue fmt * unitValue fmt := by ring
    _ = signed (n ^^ m) (u * v / 2 ^ fmt.oneShift) * unitValue fmt := by
      rw [signed_mul_signed, signed_mul, mul_unitValue hfmt (_ * _)]
    _ = _ := by push_cast; rfl

/-- The quotient of two numbers of units, in units. -/
theorem units_div_units (hfmt : fmt.Proper) (n m : Bool) (u v : Nat) :
    signed n u * unitValue fmt / (signed m v * unitValue fmt) =
      signed (n ^^ m) (((u * 2 ^ fmt.oneShift : Nat) : ℚ) / v) * unitValue fmt := by
  have hone : (2 ^ fmt.oneShift : ℚ) ≠ 0 := by positivity
  rw [mul_div_mul_right _ _ (unitValue_pos fmt).ne', signed_div_signed, signed_mul, mul_unitValue hfmt]
  push_cast
  rw [div_right_comm, mul_div_cancel_right₀ _ hone]

/-- Zero rounds to the zero of its sign. -/
theorem roundsTo_zero (hfmt : fmt.Proper) (n : Bool) : RoundsTo fmt 0 (n = true) (withSign fmt n 0) := by
  simpa [roundMag_zero, signed_zero] using roundsTo_signed hfmt n 0 one_pos

theorem multipliesAsIeee (hfmt : fmt.Proper) : MultipliesAsIeee fmt (onNats fmt mulVal) := by
  intro x y hx hy
  rw [onNats]
  have hx := spells_unpack hfmt hx
  have hy := spells_unpack hfmt hy
  generalize unpack fmt x = a at hx ⊢
  generalize unpack fmt y = b at hy ⊢
  cases hx with
  | nan => simp [mulVal, *]
  | inf n _ _ _ _ hn =>
    cases hy with
    | nan => simp [mulVal, *]
    | inf m _ _ _ _ hm => simp [mulVal, signsDiffer_iff hn hm, infOfSign_withSign, *]
    | fin m v _ _ _ _ hm =>
      by_cases hv : v = 0 <;> simp [mulVal, signsDiffer_iff hn hm, infOfSign_withSign, *]
  | fin n u _ _ _ _ hn hvx =>
    cases hy with
    | nan => simp [mulVal, *]
    | inf m _ _ _ _ hm =>
      by_cases hu : u = 0 <;> simp [mulVal, signsDiffer_iff hn hm, infOfSign_withSign, *]
    | fin m v _ _ _ _ hm hvy =>
      refine ⟨by simp [mulVal, *], fun r hr => ⟨by simp [*], fun _ _ => ?_⟩⟩
      obtain rfl := Option.some.inj hr
      rw [hvx, hvy, signsDiffer_iff hn hm, units_mul_units hfmt]
      exact roundsTo_signed hfmt _ _ (by positivity)

theorem dividesAsIeee (hfmt : fmt.Proper) : DividesAsIeee fmt (onNats fmt divVal) := by
  intro x y hx hy
  rw [onNats]
  have hx := spells_unpack hfmt hx
  have hy := spells_unpack hfmt hy
  generalize unpack fmt x = a at hx ⊢
  generalize unpack fmt y = b at hy ⊢
  cases hx with
  | nan => simp [divVal, *]
  | inf n _ _ _ _ hn =>
    cases hy with
    | nan => simp [divVal, *]
    | inf m _ _ _ _ hm => simp [divVal, *]
    | fin m v _ _ _ _ hm => simp [divVal, signsDiffer_iff hn hm, infOfSign_withSign, *]
  | fin n u _ _ _ _ hn hvx =>
    cases hy with
    | nan => simp [divVal, *]
    | inf m _ _ _ _ hm =>
      refine ⟨by simp [divVal, *], fun r hr => ⟨by simp [*], fun _ => ?_, by simp [*]⟩⟩
      obtain rfl := Option.some.inj hr
      rw [signsDiffer_iff hn hm]
      exact roundsTo_zero hfmt _
    | fin m v _ _ _ _ hm hvy =>
      by_cases hv : v = 0
      · by_cases hu : u = 0 <;> simp [divVal, signsDiffer_iff hn hm, infOfSign_withSign, *]
      refine ⟨by simp [divVal, *], fun r hr => ⟨by simp [*], by simp [*], fun _ _ _ => ?_⟩⟩
      obtain rfl := Option.some.inj ((if_neg hv).symm.trans hr)
      rw [hvx, hvy, signsDiffer_iff hn hm, units_div_units hfmt]
      exact roundsTo_signed hfmt _ _ (Nat.pos_of_ne_zero hv)

/-! ### The statements -/

/-- Settles O17, by the case split of `addsAsIeee` in either format. -/
theorem floatAdditionIsIeee : Obligations.FloatAdditionIsIeee :=
  ⟨addsAsIeee binary32_proper, addsAsIeee binary64_proper⟩

/-- Settles O18: the addition of the right operand with its sign changed. -/
theorem floatSubtractionIsIeee : Obligations.FloatSubtractionIsIeee :=
  ⟨subtractsAsIeee binary32_proper, subtractsAsIeee binary64_proper⟩

/-- Settles O19: the exact product in units is a quotient by 2^oneShift, which is rounded. -/
theorem floatMultiplicationIsIeee : Obligations.FloatMultiplicationIsIeee :=
  ⟨multipliesAsIeee binary32_proper, multipliesAsIeee binary64_proper⟩

/-- Settles O20: the exact quotient in units is rounded. -/
theorem floatDivisionIsIeee : Obligations.FloatDivisionIsIeee :=
  ⟨dividesAsIeee binary32_proper, dividesAsIeee binary64_proper⟩

end Sys2Proof.Rules
end

section
/-! SUPPORT. The floating-point comparisons (spec 40_primitives.md R119; 42_comparison.md R218 to R269): the relations of the
model are those of IEEE 754, and a comparison pushes the byte of its relation. -/

namespace Sys2Proof.Machine

theorem bytesOf_byte (b : Byte) : bytesOf b = [b] := by
  simp [bytesOf]

end Sys2Proof.Machine

namespace Sys2Proof.Rules

open Sys2Proof.Machine

variable {fmt : FloatFormat}

/-! ### The relations -/

theorem feqVal_iff {x y : Nat} {a b : FloatVal} (hx : Spells fmt x a) (hy : Spells fmt y b) :
    feqVal a b = true ↔ SameValue fmt x y := by
  cases hx with
  | nan => simp [feqVal, SameValue, *]
  | inf n => cases hy <;> simp [feqVal, SameValue, *]
  | fin n u _ _ _ _ _ hvx =>
    cases hy with
    | nan | inf => simp [feqVal, SameValue, *]
    | fin m v _ _ _ _ _ hvy =>
      have hvalue : ratOf fmt x = ratOf fmt y ↔ signedUnits n u = signedUnits m v := by
        rw [hvx, hvy, mul_left_inj' (unitValue_pos fmt).ne', ← cast_signedUnits, ← cast_signedUnits, Int.cast_inj]
      clear hvx hvy
      simp [feqVal, SameValue, *]

theorem fltVal_iff {x y : Nat} {a b : FloatVal} (hx : Spells fmt x a) (hy : Spells fmt y b) :
    fltVal a b = true ↔ Below fmt x y := by
  cases hx with
  | nan => simp [fltVal, Below, *]
  | inf n =>
    cases hy with
    | nan | fin => simp [fltVal, Below, *]
    | inf m =>
      simp only [fltVal, Below, Bool.and_eq_true, Bool.not_eq_true', *]
      cases n <;> simp
  | fin n u _ _ _ _ _ hvx =>
    cases hy with
    | nan | inf => simp [fltVal, Below, *]
    | fin m v _ _ _ _ _ hvy =>
      have hvalue : ratOf fmt x < ratOf fmt y ↔ signedUnits n u < signedUnits m v := by
        rw [hvx, hvy, mul_lt_mul_iff_left₀ (unitValue_pos fmt), ← cast_signedUnits, ← cast_signedUnits, Int.cast_lt]
      clear hvx hvy
      simp [fltVal, Below, *]

/-- The relation of the model on data is R on the patterns that spell them. -/
def Decides (fmt : FloatFormat) (rel : FloatVal → FloatVal → Bool) (R : Nat → Nat → Prop) : Prop :=
  ∀ x y, Pattern fmt x → Pattern fmt y → (rel (unpack fmt x) (unpack fmt y) = true ↔ R x y)

theorem decides_feqVal (hfmt : fmt.Proper) : Decides fmt feqVal (SameValue fmt) := fun _ _ hx hy =>
  feqVal_iff (spells_unpack hfmt hx) (spells_unpack hfmt hy)

theorem decides_fltVal (hfmt : fmt.Proper) : Decides fmt fltVal (Below fmt) := fun _ _ hx hy =>
  fltVal_iff (spells_unpack hfmt hx) (spells_unpack hfmt hy)

theorem decides_fneqVal (hfmt : fmt.Proper) : Decides fmt fneqVal fun x y => ¬ SameValue fmt x y := fun x y hx hy => by
  rw [fneqVal, Bool.not_eq_true', Bool.eq_false_iff]
  exact not_congr (decides_feqVal hfmt x y hx hy)

theorem decides_fgtVal (hfmt : fmt.Proper) : Decides fmt fgtVal fun x y => Below fmt y x := fun x y hx hy =>
  decides_fltVal hfmt y x hy hx

theorem decides_flteqVal (hfmt : fmt.Proper) : Decides fmt flteqVal fun x y => Below fmt x y ∨ SameValue fmt x y :=
  fun x y hx hy =>
    Bool.or_eq_true_iff.trans (or_congr (decides_fltVal hfmt x y hx hy) (decides_feqVal hfmt x y hx hy))

theorem decides_fgteqVal (hfmt : fmt.Proper) : Decides fmt fgteqVal fun x y => Below fmt y x ∨ SameValue fmt x y :=
  fun x y hx hy =>
    Bool.or_eq_true_iff.trans (or_congr (decides_fltVal hfmt y x hy hx) (decides_feqVal hfmt x y hx hy))

/-! ### The instructions -/

/-- Under the default map an opcode is read off the instruction's place. -/
theorem opcode_of_rowOf {i : Instr} {op : Byte} (h : BitVec.ofNat 8 (rowOf i + 1) :: immBytes i = [op]) :
    Opcode i op := (encode_defaultOpmap i).trans h

/-- An instruction that is a comparison meets the rule of its relation. -/
theorem compareRule_of_exec {w : Nat} (hw : 8 ∣ w) (hpos : 8 ≤ w) {rel : BitVec w → BitVec w → Bool}
    {P : BitVec w → BitVec w → Prop} {i : Instr} {op : Byte} (hop : Opcode i op)
    (hexec : ∀ s, exec i s = finish s (Machine.compare w rel s)) (hrel : ∀ a b, rel a b = true ↔ P a b) :
    CompareRule w P i op := by
  refine ⟨hop, fun s => ⟨fun h => ⟨_, ?_, raise_faultedFrom _ s⟩, fun pre a b hlive hcap => ?_⟩⟩
  · rw [hexec, Machine.compare, binary_underflow _ h, finish_error]
  · obtain ⟨t, ht, htlive, hframe⟩ := binary_live hw (by omega) (fun a b => byteOf (rel a b)) hlive hcap
    have hpush : Pushes i s pre [byteOf (rel a b)] :=
      ⟨t, by rw [hexec, Machine.compare, ht, finish_ok], by rwa [← bytesOf_byte], hframe⟩
    exact ⟨fun h => by rwa [(hrel a b).2 h] at hpush,
      fun h => by rwa [Bool.eq_false_iff.2 (mt (hrel a b).1 h)] at hpush⟩

theorem compareRule_binary32 {rel : FloatVal → FloatVal → Bool} {R : Nat → Nat → Prop} {i : Instr} {op : Byte}
    (hrel : Decides binary32 rel R) (hop : Opcode i op)
    (hexec : ∀ s, exec i s = finish s (compareF32 (relPatterns binary32 rel) s)) :
    CompareRule 32 (fun a b => R a.toNat b.toNat) i op :=
  compareRule_of_exec (rel := relPatterns binary32 rel) (by decide) (by decide) hop
    (fun s => by rw [hexec, compareF32_eq]) fun a b => hrel _ _ a.isLt b.isLt

theorem compareRule_binary64 {rel : FloatVal → FloatVal → Bool} {R : Nat → Nat → Prop} {i : Instr} {op : Byte}
    (hrel : Decides binary64 rel R) (hop : Opcode i op)
    (hexec : ∀ s, exec i s = finish s (compareF64 (relPatterns binary64 rel) s)) :
    CompareRule 64 (fun a b => R a.toNat b.toNat) i op :=
  compareRule_of_exec (rel := relPatterns binary64 rel) (by decide) (by decide) hop
    (fun s => by rw [hexec, compareF64_eq]) fun a b => hrel _ _ a.isLt b.isLt

/-- Settles O23: each instruction is a comparison by the relation of its name. -/
theorem floatComparisonsAreIeee : Obligations.FloatComparisonsAreIeee :=
  have h32 := binary32_proper
  have h64 := binary64_proper
  ⟨compareRule_binary32 (decides_feqVal h32) (opcode_of_rowOf (by decide)) fun _ => rfl,
    compareRule_binary64 (decides_feqVal h64) (opcode_of_rowOf (by decide)) fun _ => rfl,
    compareRule_binary32 (decides_fneqVal h32) (opcode_of_rowOf (by decide)) fun _ => rfl,
    compareRule_binary64 (decides_fneqVal h64) (opcode_of_rowOf (by decide)) fun _ => rfl,
    compareRule_binary32 (decides_fltVal h32) (opcode_of_rowOf (by decide)) fun _ => rfl,
    compareRule_binary64 (decides_fltVal h64) (opcode_of_rowOf (by decide)) fun _ => rfl,
    compareRule_binary32 (decides_flteqVal h32) (opcode_of_rowOf (by decide)) fun _ => rfl,
    compareRule_binary64 (decides_flteqVal h64) (opcode_of_rowOf (by decide)) fun _ => rfl,
    compareRule_binary32 (decides_fgtVal h32) (opcode_of_rowOf (by decide)) fun _ => rfl,
    compareRule_binary64 (decides_fgtVal h64) (opcode_of_rowOf (by decide)) fun _ => rfl,
    compareRule_binary32 (decides_fgteqVal h32) (opcode_of_rowOf (by decide)) fun _ => rfl,
    compareRule_binary64 (decides_fgteqVal h64) (opcode_of_rowOf (by decide)) fun _ => rfl⟩

end Sys2Proof.Rules
end

section
/-! SUPPORT. ADD, SUB, MUL, DIV and MOD on integers (spec 40_primitives.md R114 to R116; 41_arithmetic.md R130 to R187):
the operations on bits are those on the integers the operands denote, and an instruction that is a binary operation
or a division meets its rule. -/

namespace Sys2Proof.Machine

/-! ### Two operands on a live stack -/

/-- A result pushed after two operands came off, with no more bytes than came off. -/
theorem pushN_after_pair {w r : Nat} (v : BitVec r) {s : State} {pre : List Byte} {a b : BitVec w}
    (h : s.live = pre ++ bytesOf a ++ bytesOf b) (hcap : s.sp.toNat ≤ s.params.stackCap) (hr : r / 8 ≤ 2 * (w / 8)) :
    ∃ t, pushN v (s.setSp (BitVec.ofNat 64 pre.length)) = .ok t ∧ t.live = pre ++ bytesOf v ∧
      StackStep s t pre.length (r / 8) :=
  pushN_after v ((List.append_assoc ..).symm ▸ h) hcap (by simp; omega)

theorem divideU_underflow {w : Nat} (f : BitVec w → BitVec w → BitVec w) {s : State} (h : s.sp.toNat < 2 * (w / 8)) :
    divideU w f s = .error .stackUnderflow := by
  simp [divideU, popPair_underflow h, bind, Except.bind]

theorem divideU_live {w : Nat} (hw : 8 ∣ w) (f : BitVec w → BitVec w → BitVec w) {s : State} {pre : List Byte}
    {a b : BitVec w} (h : s.live = pre ++ bytesOf a ++ bytesOf b) :
    divideU w f s = if b = 0 then .error .divisionByZero
      else pushN (f a b) (s.setSp (BitVec.ofNat 64 pre.length)) := by
  simp only [divideU, popPair_live hw h, bind, Except.bind]

theorem divideS_underflow {w : Nat} (f : BitVec w → BitVec w → BitVec w) {s : State} (h : s.sp.toNat < 2 * (w / 8)) :
    divideS w f s = .error .stackUnderflow := by
  simp [divideS, popPair_underflow h, bind, Except.bind]

theorem divideS_live {w : Nat} (hw : 8 ∣ w) (f : BitVec w → BitVec w → BitVec w) {s : State} {pre : List Byte}
    {a b : BitVec w} (h : s.live = pre ++ bytesOf a ++ bytesOf b) :
    divideS w f s = if b = 0 ∨ s.params.sdivOvf = .fault ∧ sdivOverflows a b then .error .divisionByZero
      else pushN (f a b) (s.setSp (BitVec.ofNat 64 pre.length)) := by
  simp only [divideS, popPair_live hw h, bind, Except.bind, ite_or]
  rfl

end Sys2Proof.Machine

namespace Sys2Proof.Rules

open Sys2Proof.Machine

/-! ### The operations on integers -/

theorem ofInt_intOf_unsigned {w : Nat} (p : Nat) (v : BitVec w) : BitVec.ofInt p (intOf false v) = v.setWidth p := by
  rw [intOf, if_neg Bool.false_ne_true, BitVec.ofInt_natCast, BitVec.ofNat_toNat]

theorem ofInt_intOf_signed {w : Nat} (p : Nat) (v : BitVec w) : BitVec.ofInt p (intOf true v) = v.signExtend p := rfl

theorem ofInt_sub (p : Nat) (x y : Int) : BitVec.ofInt p (x - y) = BitVec.ofInt p x - BitVec.ofInt p y := by
  rw [Int.sub_eq_add_neg, BitVec.ofInt_add, BitVec.ofInt_neg, BitVec.sub_eq_add_neg]

theorem addU_eq_ofInt {w : Nat} (p : Nat) (a b : BitVec w) :
    addU p a b = BitVec.ofInt p (intOf false a + intOf false b) := by
  rw [BitVec.ofInt_add, ofInt_intOf_unsigned, ofInt_intOf_unsigned, addU]

theorem addS_eq_ofInt {w : Nat} (p : Nat) (a b : BitVec w) :
    addS p a b = BitVec.ofInt p (intOf true a + intOf true b) := by
  rw [BitVec.ofInt_add, ofInt_intOf_signed, ofInt_intOf_signed, addS]

theorem subU_eq_ofInt {w : Nat} (p : Nat) (a b : BitVec w) :
    subU p a b = BitVec.ofInt p (intOf false a - intOf false b) := by
  rw [ofInt_sub, ofInt_intOf_unsigned, ofInt_intOf_unsigned, subU]

theorem subS_eq_ofInt {w : Nat} (p : Nat) (a b : BitVec w) :
    subS p a b = BitVec.ofInt p (intOf true a - intOf true b) := by
  rw [ofInt_sub, ofInt_intOf_signed, ofInt_intOf_signed, subS]

theorem mulU_eq_ofInt {w : Nat} (p : Nat) (a b : BitVec w) :
    mulU p a b = BitVec.ofInt p (intOf false a * intOf false b) := by
  rw [BitVec.ofInt_mul, ofInt_intOf_unsigned, ofInt_intOf_unsigned, mulU]

theorem mulS_eq_ofInt {w : Nat} (p : Nat) (a b : BitVec w) :
    mulS p a b = BitVec.ofInt p (intOf true a * intOf true b) := by
  rw [BitVec.ofInt_mul, ofInt_intOf_signed, ofInt_intOf_signed, mulS]

theorem truncQuot_eq_tdiv (x y : Int) : truncQuot x y = x.tdiv y :=
  calc truncQuot x y = (x.tdiv y).sign * (x.tdiv y).natAbs := by
        rw [truncQuot, Int.sign_tdiv, Int.natAbs_tdiv]
        split_ifs with h
        · simp [Nat.div_eq_of_lt h]
        · rfl
    _ = x.tdiv y := Int.sign_mul_natAbs _

theorem truncRem_eq_tmod (x y : Int) : truncRem x y = x.tmod y := by
  rw [truncRem, truncQuot_eq_tdiv, Int.tmod_def]

theorem urem_eq_ofNat {w : Nat} (a b : BitVec w) :
    urem a b = BitVec.ofNat w (a.toNat - b.toNat * (a.toNat / b.toNat)) := by
  rw [urem, Nat.mod_eq_sub]

theorem sdiv_eq_ofInt {w : Nat} (a b : BitVec w) : sdiv a b = BitVec.ofInt w (truncQuot a.toInt b.toInt) := by
  rw [sdiv, truncQuot_eq_tdiv]

theorem srem_eq_ofInt {w : Nat} (a b : BitVec w) : srem a b = BitVec.ofInt w (truncRem a.toInt b.toInt) := by
  rw [srem, truncRem_eq_tmod]

theorem sdivOverflows_iff {w : Nat} (hpos : 0 < w) (a b : BitVec w) : sdivOverflows a b = true ↔ OverflowPair a b := by
  rw [sdivOverflows, decide_eq_true_iff, OverflowPair, ← BitVec.toInt_inj, ← BitVec.toInt_inj,
    BitVec.toInt_intMin_of_pos hpos, BitVec.toInt_allOnes, if_pos hpos]

/-! ### The rules -/

theorem takesFault_of_exec {i : Instr} {s : State} {body : Except Cause State} {c : Cause}
    (hexec : exec i s = finish s body) (hbody : body = .error c) : TakesFault i s c :=
  ⟨_, by rw [hexec, hbody, finish_error], raise_faultedFrom c s⟩

theorem pushes_of_exec {r : Nat} {v : BitVec r} {i : Instr} {s : State} {pre : List Byte} {body : Except Cause State}
    (hexec : exec i s = finish s body)
    (hbody : ∃ t, body = .ok t ∧ t.live = pre ++ bytesOf v ∧ StackStep s t pre.length (r / 8)) :
    Pushes i s pre (bytesOf v) := by
  obtain ⟨t, ht, hlive, hframe⟩ := hbody
  exact ⟨t, by rw [hexec, ht, finish_ok], hlive, by rwa [length_bytesOf]⟩

/-- An instruction that is a binary operation g meets the rule of what g computes. -/
theorem binaryRule_of_exec {w r : Nat} (hw : 8 ∣ w) (hr : r / 8 ≤ 2 * (w / 8)) {f g : BitVec w → BitVec w → BitVec r}
    {i : Instr} {op : Byte} (hop : Opcode i op) (hexec : ∀ s, exec i s = finish s (binary w g s))
    (hg : ∀ a b, g a b = f a b) : BinaryRule w r f i op :=
  ⟨hop, fun s => ⟨fun h => takesFault_of_exec (hexec s) (binary_underflow g h), fun _ a b hlive hcap =>
    hg a b ▸ pushes_of_exec (hexec s) (binary_live hw hr g hlive hcap)⟩⟩

theorem unsignedDivRule_of_exec {w : Nat} (hw : 8 ∣ w) {f : Nat → Nat → Nat} {g : BitVec w → BitVec w → BitVec w}
    {i : Instr} {op : Byte} (hop : Opcode i op) (hexec : ∀ s, exec i s = finish s (divideU w g s))
    (hg : ∀ a b, g a b = BitVec.ofNat w (f a.toNat b.toNat)) : UnsignedDivRule w f i op := by
  refine ⟨hop, fun s => ⟨fun h => takesFault_of_exec (hexec s) (divideU_underflow g h), fun pre a b hlive => ?_⟩⟩
  have hdiv := divideU_live hw g hlive
  refine ⟨fun hb => takesFault_of_exec (hexec s) (by rw [hdiv, if_pos hb]), fun hb hcap => ?_⟩
  rw [← hg]
  refine pushes_of_exec (hexec s) ?_
  rw [hdiv, if_neg hb]
  exact pushN_after_pair _ hlive hcap (by omega)

theorem signedDivRule_of_exec {w : Nat} (hw : 8 ∣ w) (hpos : 0 < w) {f : Int → Int → Int}
    {g : BitVec w → BitVec w → BitVec w} {i : Instr} {op : Byte} (hop : Opcode i op)
    (hexec : ∀ s, exec i s = finish s (divideS w g s)) (hg : ∀ a b, g a b = BitVec.ofInt w (f a.toInt b.toInt)) :
    SignedDivRule w f i op := by
  refine ⟨hop, fun s => ⟨fun h => takesFault_of_exec (hexec s) (divideS_underflow g h), fun pre a b hlive => ?_⟩⟩
  have hdiv := divideS_live hw g hlive
  refine ⟨fun hb => takesFault_of_exec (hexec s) (by rw [hdiv, if_pos (.inl hb)]), fun hpair hfault =>
    takesFault_of_exec (hexec s) (by rw [hdiv, if_pos (.inr ⟨hfault, (sdivOverflows_iff hpos a b).2 hpair⟩)]),
    fun hb hwrap hcap => ?_⟩
  have hno : ¬ (b = 0 ∨ s.params.sdivOvf = .fault ∧ sdivOverflows a b) := by
    rintro (hzero | ⟨hfault, hover⟩)
    · exact hb hzero
    · rw [hwrap ((sdivOverflows_iff hpos a b).1 hover)] at hfault
      cases hfault
  rw [← hg]
  refine pushes_of_exec (hexec s) ?_
  rw [hdiv, if_neg hno]
  exact pushN_after_pair _ hlive hcap (by omega)

/-! ### The statements -/

/-- Settles O11: each instruction is a binary operation, and the sum of the extended operands is that of the integers
they denote. -/
theorem integerAddsPromote : Obligations.IntegerAddsPromote :=
  ⟨binaryRule_of_exec (by decide) (by decide) (opcode_of_rowOf (by decide)) (fun _ => rfl) (addU_eq_ofInt 16),
    binaryRule_of_exec (by decide) (by decide) (opcode_of_rowOf (by decide)) (fun _ => rfl) (addS_eq_ofInt 16),
    binaryRule_of_exec (by decide) (by decide) (opcode_of_rowOf (by decide)) (fun _ => rfl) (addU_eq_ofInt 32),
    binaryRule_of_exec (by decide) (by decide) (opcode_of_rowOf (by decide)) (fun _ => rfl) (addS_eq_ofInt 32),
    binaryRule_of_exec (by decide) (by decide) (opcode_of_rowOf (by decide)) (fun _ => rfl) (addU_eq_ofInt 64),
    binaryRule_of_exec (by decide) (by decide) (opcode_of_rowOf (by decide)) (fun _ => rfl) (addS_eq_ofInt 64),
    binaryRule_of_exec (by decide) (by decide) (opcode_of_rowOf (by decide)) (fun _ => rfl) (addU_eq_ofInt 64),
    binaryRule_of_exec (by decide) (by decide) (opcode_of_rowOf (by decide)) (fun _ => rfl) (addS_eq_ofInt 64)⟩

/-- Settles O12: as O11, with the difference. -/
theorem integerSubtractsPromote : Obligations.IntegerSubtractsPromote :=
  ⟨binaryRule_of_exec (by decide) (by decide) (opcode_of_rowOf (by decide)) (fun _ => rfl) (subU_eq_ofInt 16),
    binaryRule_of_exec (by decide) (by decide) (opcode_of_rowOf (by decide)) (fun _ => rfl) (subS_eq_ofInt 16),
    binaryRule_of_exec (by decide) (by decide) (opcode_of_rowOf (by decide)) (fun _ => rfl) (subU_eq_ofInt 32),
    binaryRule_of_exec (by decide) (by decide) (opcode_of_rowOf (by decide)) (fun _ => rfl) (subS_eq_ofInt 32),
    binaryRule_of_exec (by decide) (by decide) (opcode_of_rowOf (by decide)) (fun _ => rfl) (subU_eq_ofInt 64),
    binaryRule_of_exec (by decide) (by decide) (opcode_of_rowOf (by decide)) (fun _ => rfl) (subS_eq_ofInt 64),
    binaryRule_of_exec (by decide) (by decide) (opcode_of_rowOf (by decide)) (fun _ => rfl) (subU_eq_ofInt 64),
    binaryRule_of_exec (by decide) (by decide) (opcode_of_rowOf (by decide)) (fun _ => rfl) (subS_eq_ofInt 64)⟩

/-- Settles O13: as O11, with the product. -/
theorem integerMultipliesPromote : Obligations.IntegerMultipliesPromote :=
  ⟨binaryRule_of_exec (by decide) (by decide) (opcode_of_rowOf (by decide)) (fun _ => rfl) (mulU_eq_ofInt 16),
    binaryRule_of_exec (by decide) (by decide) (opcode_of_rowOf (by decide)) (fun _ => rfl) (mulS_eq_ofInt 16),
    binaryRule_of_exec (by decide) (by decide) (opcode_of_rowOf (by decide)) (fun _ => rfl) (mulU_eq_ofInt 32),
    binaryRule_of_exec (by decide) (by decide) (opcode_of_rowOf (by decide)) (fun _ => rfl) (mulS_eq_ofInt 32),
    binaryRule_of_exec (by decide) (by decide) (opcode_of_rowOf (by decide)) (fun _ => rfl) (mulU_eq_ofInt 64),
    binaryRule_of_exec (by decide) (by decide) (opcode_of_rowOf (by decide)) (fun _ => rfl) (mulS_eq_ofInt 64),
    binaryRule_of_exec (by decide) (by decide) (opcode_of_rowOf (by decide)) (fun _ => rfl) (mulU_eq_ofInt 64),
    binaryRule_of_exec (by decide) (by decide) (opcode_of_rowOf (by decide)) (fun _ => rfl) (mulS_eq_ofInt 64)⟩

/-- Settles O14: each instruction is a division, and the truncated quotient is that of the magnitudes with its sign. -/
theorem integerDivisionTruncates : Obligations.IntegerDivisionTruncates :=
  ⟨unsignedDivRule_of_exec (by decide) (opcode_of_rowOf (by decide)) (fun _ => rfl) fun _ _ => rfl,
    signedDivRule_of_exec (by decide) (by decide) (opcode_of_rowOf (by decide)) (fun _ => rfl) sdiv_eq_ofInt,
    unsignedDivRule_of_exec (by decide) (opcode_of_rowOf (by decide)) (fun _ => rfl) fun _ _ => rfl,
    signedDivRule_of_exec (by decide) (by decide) (opcode_of_rowOf (by decide)) (fun _ => rfl) sdiv_eq_ofInt,
    unsignedDivRule_of_exec (by decide) (opcode_of_rowOf (by decide)) (fun _ => rfl) fun _ _ => rfl,
    signedDivRule_of_exec (by decide) (by decide) (opcode_of_rowOf (by decide)) (fun _ => rfl) sdiv_eq_ofInt,
    unsignedDivRule_of_exec (by decide) (opcode_of_rowOf (by decide)) (fun _ => rfl) fun _ _ => rfl,
    signedDivRule_of_exec (by decide) (by decide) (opcode_of_rowOf (by decide)) (fun _ => rfl) sdiv_eq_ofInt⟩

/-- Settles O15: each instruction is a division, and the remainder is what the quotient of O14 leaves. -/
theorem integerRemainderTruncates : Obligations.IntegerRemainderTruncates :=
  ⟨unsignedDivRule_of_exec (by decide) (opcode_of_rowOf (by decide)) (fun _ => rfl) urem_eq_ofNat,
    signedDivRule_of_exec (by decide) (by decide) (opcode_of_rowOf (by decide)) (fun _ => rfl) srem_eq_ofInt,
    unsignedDivRule_of_exec (by decide) (opcode_of_rowOf (by decide)) (fun _ => rfl) urem_eq_ofNat,
    signedDivRule_of_exec (by decide) (by decide) (opcode_of_rowOf (by decide)) (fun _ => rfl) srem_eq_ofInt,
    unsignedDivRule_of_exec (by decide) (opcode_of_rowOf (by decide)) (fun _ => rfl) urem_eq_ofNat,
    signedDivRule_of_exec (by decide) (by decide) (opcode_of_rowOf (by decide)) (fun _ => rfl) srem_eq_ofInt,
    unsignedDivRule_of_exec (by decide) (opcode_of_rowOf (by decide)) (fun _ => rfl) urem_eq_ofNat,
    signedDivRule_of_exec (by decide) (by decide) (opcode_of_rowOf (by decide)) (fun _ => rfl) srem_eq_ofInt⟩

end Sys2Proof.Rules
end

section
/-! SUPPORT. ADD, SUB, MUL and DIV on floating-point numbers (spec 40_primitives.md R118; 41_arithmetic.md R132, R148 to
R179): the two widths are one shape, and FNUM gives a pattern of the format. -/

namespace Sys2Proof.Machine

/-! ### The instructions, in one shape -/

/-- An arithmetic instruction on patterns of W bits: `arithF32` and `arithF64` are this. -/
def arithFloat (w : Nat) (fmt : FloatFormat) (op : FloatOp) (s : State) : Except Cause State := do
  let ((a, b), s) ← popPair w s
  let (r, s) := applyFnum fmt op a b s
  pushN r s

theorem arithF32_eq (op : FloatOp) (s : State) : arithF32 op s = arithFloat 32 binary32 op s := by
  simp only [arithF32, arithFloat, popPairF32_eq, pushF32_eq]

theorem arithF64_eq (op : FloatOp) (s : State) : arithF64 op s = arithFloat 64 binary64 op s := by
  simp only [arithF64, arithFloat, popPairF64_eq, pushF64_eq]

/-- The counter of draws after FNUM was applied to a and b. -/
def drawsAfter {w : Nat} (fmt : FloatFormat) (op : FloatOp) (a b : BitVec w) (draws : Nat) : Nat :=
  if (ieeeResult fmt op a b).isNone then draws + 1 else draws

theorem applyFnum_eq {w : Nat} (fmt : FloatFormat) (op : FloatOp) (a b : BitVec w) (s : State) :
    applyFnum fmt op a b s = (fnum fmt op s.draws a b, { s with draws := drawsAfter fmt op a b s.draws }) := by
  simp only [applyFnum, drawsAfter]
  split_ifs <;> rfl

theorem arithFloat_underflow {w : Nat} (fmt : FloatFormat) (op : FloatOp) {s : State} (h : s.sp.toNat < 2 * (w / 8)) :
    arithFloat w fmt op s = .error .stackUnderflow := by
  simp [arithFloat, popPair_underflow h, bind, Except.bind]

theorem StackStep.stackDrawStep {s t : State} {d k n : Nat} (h : StackStep { s with draws := d } t k n) :
    StackDrawStep s t k n ∧ t.draws = d := by
  obtain ⟨hfields, hbytes⟩ := h
  have hdraws : t.draws = d := congrArg State.draws hfields
  exact ⟨⟨by rwa [hdraws], hbytes⟩, hdraws⟩

theorem arithFloat_live {w : Nat} (hw : 8 ∣ w) (fmt : FloatFormat) (op : FloatOp) {s : State} {pre : List Byte}
    {a b : BitVec w} (h : s.live = pre ++ bytesOf a ++ bytesOf b) (hcap : s.sp.toNat ≤ s.params.stackCap) :
    ∃ t, arithFloat w fmt op s = .ok t ∧ t.live = pre ++ bytesOf (fnum fmt op s.draws a b) ∧
      StackDrawStep s t pre.length (w / 8) ∧ t.draws = drawsAfter fmt op a b s.draws := by
  obtain ⟨t, ht, hlive, hframe⟩ := pushN_after_pair (s := { s with draws := drawsAfter fmt op a b s.draws })
    (fnum fmt op s.draws a b) h hcap (by omega)
  refine ⟨t, ?_, hlive, hframe.stackDrawStep⟩
  simp only [arithFloat, popPair_live hw h, bind, Except.bind, applyFnum_eq]
  exact ht

end Sys2Proof.Machine

namespace Sys2Proof.Rules

open Sys2Proof.Machine

variable {fmt : FloatFormat}

/-! ### The results are patterns -/

theorem roundMag_lt_signBit (fmt : FloatFormat) (num den : Nat) : roundMag fmt num den < fmt.signBit :=
  (min_le_right _ _).trans_lt fmt.infMag_lt_signBit

/-- Each branch that answers gives a sign and a magnitude below the sign bit. -/
theorem addVal_pattern {x y : FloatVal} : ∀ r ∈ addVal fmt x y, Pattern fmt r := by
  fun_cases addVal fmt x y <;>
    simp [pattern_withSign, FloatFormat.infMag_lt_signBit, FloatFormat.signBit_pos, roundMag_lt_signBit]

theorem mulVal_pattern {x y : FloatVal} : ∀ r ∈ mulVal fmt x y, Pattern fmt r := by
  fun_cases mulVal fmt x y <;>
    simp [pattern_withSign, FloatFormat.infMag_lt_signBit, roundMag_lt_signBit]

theorem divVal_pattern {x y : FloatVal} : ∀ r ∈ divVal fmt x y, Pattern fmt r := by
  fun_cases divVal fmt x y <;>
    simp [pattern_withSign, FloatFormat.infMag_lt_signBit, FloatFormat.signBit_pos, roundMag_lt_signBit]

theorem onVals_pattern (op : FloatOp) {x y : FloatVal} : ∀ r ∈ onVals op fmt x y, Pattern fmt r := by
  cases op with
  | add | sub => exact addVal_pattern
  | mul => exact mulVal_pattern
  | div => exact divVal_pattern

/-! ### What `FNUM` gives -/

section
variable {w : Nat} {op : FloatOp} {a b : BitVec w}

theorem ieeeResult_of_some {x : Nat} (h : onNats fmt (onVals op) a.toNat b.toNat = some x) :
    ieeeResult fmt op a b = some (BitVec.ofNat w x) := congrArg (Option.map (BitVec.ofNat w)) h

theorem ieeeResult_of_none (h : onNats fmt (onVals op) a.toNat b.toNat = none) : ieeeResult fmt op a b = none :=
  congrArg (Option.map (BitVec.ofNat w)) h

theorem drawsAfter_of_some {x : Nat} (h : onNats fmt (onVals op) a.toNat b.toNat = some x) (draws : Nat) :
    drawsAfter fmt op a b draws = draws := by
  simp [drawsAfter, ieeeResult_of_some h]

theorem drawsAfter_of_none (h : onNats fmt (onVals op) a.toNat b.toNat = none) (draws : Nat) :
    drawsAfter fmt op a b draws = draws + 1 := by
  simp [drawsAfter, ieeeResult_of_none h]

variable (hwidth : w = 1 + fmt.expBits + fmt.fracBits)
include hwidth

theorem toNat_fnum_of_some {x : Nat} (h : onNats fmt (onVals op) a.toNat b.toNat = some x) (draw : Nat) :
    (fnum fmt op draw a b).toNat = x := by
  have hx : x < 2 ^ w := hwidth ▸ onVals_pattern op x h
  rw [fnum_of_some (ieeeResult_of_some h), BitVec.toNat_ofNat, Nat.mod_eq_of_lt hx]

theorem toNat_fnum_of_none (hfmt : fmt.Proper) (h : onNats fmt (onVals op) a.toNat b.toNat = none) (draw : Nat) :
    (fnum fmt op draw a b).toNat = asNan fmt (Config.fnum op w draw a b).toNat := by
  have hlt := (asNan_fields fmt (Config.fnum op w draw a b).toNat hfmt.frac).1
  rw [fnum_of_none (ieeeResult_of_none h), BitVec.toNat_ofNat, Nat.mod_eq_of_lt (hwidth ▸ hlt)]

theorem isNan_fnum_of_none (hfmt : fmt.Proper) (h : onNats fmt (onVals op) a.toNat b.toNat = none) (draw : Nat) :
    IsNan fmt (fnum fmt op draw a b).toNat := by
  rw [toNat_fnum_of_none hwidth hfmt h]
  exact (asNan_fields fmt _ hfmt.frac).2

theorem fnum_eq_of_isNan (hfmt : fmt.Proper) (h : onNats fmt (onVals op) a.toNat b.toNat = none) {draw : Nat}
    (hnan : IsNan fmt (Config.fnum op w draw a b).toNat) : fnum fmt op draw a b = Config.fnum op w draw a b := by
  apply BitVec.eq_of_toNat_eq
  rw [toNat_fnum_of_none hwidth hfmt h]
  obtain ⟨hexp, hfrac⟩ := hnan
  exact asNan_of_nan (hwidth ▸ (Config.fnum op w draw a b).isLt) hexp hfrac

end

/-! ### The rule -/

/-- An instruction that is the operation op on patterns meets the rule of op. -/
theorem floatRule_of_exec {w : Nat} (hw : 8 ∣ w) (hfmt : fmt.Proper) (hwidth : w = 1 + fmt.expBits + fmt.fracBits)
    {op : FloatOp} {i : Instr} {opcode : Byte} (hop : Opcode i opcode)
    (hexec : ∀ s, exec i s = finish s (arithFloat w fmt op s)) : FloatRule w fmt op i opcode := by
  refine ⟨hop, fun s => ⟨fun h => takesFault_of_exec (hexec s) (arithFloat_underflow fmt op h),
    fun pre a b hlive hcap => ?_⟩⟩
  obtain ⟨t, ht, htlive, hframe, hdraws⟩ := arithFloat_live hw fmt op hlive hcap
  refine ⟨t, by rw [hexec, ht, finish_ok], htlive, hframe, fun x hx => ?_, fun hnone => ?_⟩
  · exact ⟨toNat_fnum_of_some hwidth hx _, hdraws.trans (drawsAfter_of_some hx _)⟩
  · exact ⟨isNan_fnum_of_none hwidth hfmt hnone _, hdraws.trans (drawsAfter_of_none hnone _),
      fnum_eq_of_isNan hwidth hfmt hnone⟩

theorem floatRule_binary32 {op : FloatOp} {i : Instr} {opcode : Byte} (hop : Opcode i opcode)
    (hexec : ∀ s, exec i s = finish s (arithF32 op s)) : FloatRule 32 binary32 op i opcode :=
  floatRule_of_exec (w := 32) (by decide) binary32_proper rfl hop fun s => by rw [hexec, arithF32_eq]

theorem floatRule_binary64 {op : FloatOp} {i : Instr} {opcode : Byte} (hop : Opcode i opcode)
    (hexec : ∀ s, exec i s = finish s (arithF64 op s)) : FloatRule 64 binary64 op i opcode :=
  floatRule_of_exec (w := 64) (by decide) binary64_proper rfl hop fun s => by rw [hexec, arithF64_eq]

/-- Settles O16: each instruction is its operation on patterns of its format. -/
theorem floatArithmeticCompletes : Obligations.FloatArithmeticCompletes :=
  ⟨floatRule_binary32 (opcode_of_rowOf (by decide)) fun _ => rfl,
    floatRule_binary64 (opcode_of_rowOf (by decide)) fun _ => rfl,
    floatRule_binary32 (opcode_of_rowOf (by decide)) fun _ => rfl,
    floatRule_binary64 (opcode_of_rowOf (by decide)) fun _ => rfl,
    floatRule_binary32 (opcode_of_rowOf (by decide)) fun _ => rfl,
    floatRule_binary64 (opcode_of_rowOf (by decide)) fun _ => rfl,
    floatRule_binary32 (opcode_of_rowOf (by decide)) fun _ => rfl,
    floatRule_binary64 (opcode_of_rowOf (by decide)) fun _ => rfl⟩

end Sys2Proof.Rules
end

section
/-! SUPPORT. The integer comparisons (spec 40_primitives.md R117; 42_comparison.md R210 to R267): the relations of the model are
those of the operands' bit strings, unsigned numbers or two's complement numbers, whatever the width. -/

namespace Sys2Proof.Machine

section
variable {w : Nat} (a b : BitVec w)

theorem eqBits_iff : eqBits a b = true ↔ a = b := decide_eq_true_iff

theorem neqBits_iff : neqBits a b = true ↔ a ≠ b := decide_eq_true_iff

theorem ltU_iff : ltU a b = true ↔ a.toNat < b.toNat := decide_eq_true_iff

theorem ltS_iff : ltS a b = true ↔ a.toInt < b.toInt := decide_eq_true_iff

theorem lteqU_iff : lteqU a b = true ↔ a.toNat ≤ b.toNat := decide_eq_true_iff

theorem lteqS_iff : lteqS a b = true ↔ a.toInt ≤ b.toInt := decide_eq_true_iff

/-- The left operand is the one pushed first. -/
theorem gtU_iff : gtU a b = true ↔ b.toNat < a.toNat := decide_eq_true_iff

theorem gtS_iff : gtS a b = true ↔ b.toInt < a.toInt := decide_eq_true_iff

theorem gteqU_iff : gteqU a b = true ↔ b.toNat ≤ a.toNat := decide_eq_true_iff

theorem gteqS_iff : gteqS a b = true ↔ b.toInt ≤ a.toInt := decide_eq_true_iff

end

end Sys2Proof.Machine

namespace Sys2Proof.Rules

open Sys2Proof.Machine

/-- `compareRule_of_exec`, with what is read off the instruction's place and width in one decidable fact. -/
theorem compareRule_of_row {w : Nat} {rel : BitVec w → BitVec w → Bool} {P : BitVec w → BitVec w → Prop} {i : Instr}
    {op : Byte} (hrel : ∀ a b, rel a b = true ↔ P a b) (hexec : ∀ s, exec i s = finish s (Machine.compare w rel s))
    (hrow : (8 ∣ w ∧ 8 ≤ w) ∧ BitVec.ofNat 8 (rowOf i + 1) :: immBytes i = [op]) : CompareRule w P i op :=
  have ⟨⟨hw, hpos⟩, hop⟩ := hrow
  compareRule_of_exec hw hpos (opcode_of_rowOf hop) hexec hrel

/-- Settles O21: each instruction is a comparison by the equality of its name, the same for both signednesses. -/
theorem integerEqualityComparisons : Obligations.IntegerEqualityComparisons :=
  ⟨compareRule_of_row eqBits_iff (fun _ => rfl) (by decide),
    compareRule_of_row eqBits_iff (fun _ => rfl) (by decide),
    compareRule_of_row eqBits_iff (fun _ => rfl) (by decide),
    compareRule_of_row eqBits_iff (fun _ => rfl) (by decide),
    compareRule_of_row eqBits_iff (fun _ => rfl) (by decide),
    compareRule_of_row eqBits_iff (fun _ => rfl) (by decide),
    compareRule_of_row eqBits_iff (fun _ => rfl) (by decide),
    compareRule_of_row eqBits_iff (fun _ => rfl) (by decide),
    compareRule_of_row neqBits_iff (fun _ => rfl) (by decide),
    compareRule_of_row neqBits_iff (fun _ => rfl) (by decide),
    compareRule_of_row neqBits_iff (fun _ => rfl) (by decide),
    compareRule_of_row neqBits_iff (fun _ => rfl) (by decide),
    compareRule_of_row neqBits_iff (fun _ => rfl) (by decide),
    compareRule_of_row neqBits_iff (fun _ => rfl) (by decide),
    compareRule_of_row neqBits_iff (fun _ => rfl) (by decide),
    compareRule_of_row neqBits_iff (fun _ => rfl) (by decide)⟩

/-- Settles O22: each instruction is a comparison by the order of its name and type. -/
theorem integerOrderComparisons : Obligations.IntegerOrderComparisons :=
  ⟨compareRule_of_row ltU_iff (fun _ => rfl) (by decide),
    compareRule_of_row ltS_iff (fun _ => rfl) (by decide),
    compareRule_of_row ltU_iff (fun _ => rfl) (by decide),
    compareRule_of_row ltS_iff (fun _ => rfl) (by decide),
    compareRule_of_row ltU_iff (fun _ => rfl) (by decide),
    compareRule_of_row ltS_iff (fun _ => rfl) (by decide),
    compareRule_of_row ltU_iff (fun _ => rfl) (by decide),
    compareRule_of_row ltS_iff (fun _ => rfl) (by decide),
    compareRule_of_row lteqU_iff (fun _ => rfl) (by decide),
    compareRule_of_row lteqS_iff (fun _ => rfl) (by decide),
    compareRule_of_row lteqU_iff (fun _ => rfl) (by decide),
    compareRule_of_row lteqS_iff (fun _ => rfl) (by decide),
    compareRule_of_row lteqU_iff (fun _ => rfl) (by decide),
    compareRule_of_row lteqS_iff (fun _ => rfl) (by decide),
    compareRule_of_row lteqU_iff (fun _ => rfl) (by decide),
    compareRule_of_row lteqS_iff (fun _ => rfl) (by decide),
    compareRule_of_row gtU_iff (fun _ => rfl) (by decide),
    compareRule_of_row gtS_iff (fun _ => rfl) (by decide),
    compareRule_of_row gtU_iff (fun _ => rfl) (by decide),
    compareRule_of_row gtS_iff (fun _ => rfl) (by decide),
    compareRule_of_row gtU_iff (fun _ => rfl) (by decide),
    compareRule_of_row gtS_iff (fun _ => rfl) (by decide),
    compareRule_of_row gtU_iff (fun _ => rfl) (by decide),
    compareRule_of_row gtS_iff (fun _ => rfl) (by decide),
    compareRule_of_row gteqU_iff (fun _ => rfl) (by decide),
    compareRule_of_row gteqS_iff (fun _ => rfl) (by decide),
    compareRule_of_row gteqU_iff (fun _ => rfl) (by decide),
    compareRule_of_row gteqS_iff (fun _ => rfl) (by decide),
    compareRule_of_row gteqU_iff (fun _ => rfl) (by decide),
    compareRule_of_row gteqS_iff (fun _ => rfl) (by decide),
    compareRule_of_row gteqU_iff (fun _ => rfl) (by decide),
    compareRule_of_row gteqS_iff (fun _ => rfl) (by decide)⟩

end Sys2Proof.Rules
end

section
/-! SUPPORT. The logical, bitwise and shift instructions (spec 40_primitives.md R120, R121; 43_logical_bitwise_shift.md
R290 to R317): truth bytes are decided by the propositions of the truth tables, a bitwise result has the bits the rule
names, a shift is the arithmetic of its amount, and an instruction that is a unary operation or a shift meets its
rule. -/

namespace Sys2Proof.Machine

/-! ### Truth bytes -/

theorem boolOf_iff (b : Byte) : boolOf b = true ↔ b ≠ 0 := decide_eq_true_iff

/-- The byte of a truth value that a proposition describes. -/
theorem byteOf_eq_ite {t : Bool} {P : Prop} [Decidable P] (h : t = true ↔ P) :
    byteOf t = if P then 0x01 else 0x00 := by
  simp only [byteOf, h]

theorem and_boolOf_iff (a b : Byte) : (boolOf a && boolOf b) = true ↔ a ≠ 0 ∧ b ≠ 0 := by
  rw [Bool.and_eq_true, boolOf_iff, boolOf_iff]

theorem or_boolOf_iff (a b : Byte) : (boolOf a || boolOf b) = true ↔ a ≠ 0 ∨ b ≠ 0 := by
  rw [Bool.or_eq_true, boolOf_iff, boolOf_iff]

/-- Exclusive or is or without and. -/
theorem xor_boolOf_iff (a b : Byte) :
    (boolOf a ^^ boolOf b) = true ↔ (a ≠ 0 ∨ b ≠ 0) ∧ ¬ (a ≠ 0 ∧ b ≠ 0) := by
  rw [← or_boolOf_iff, ← and_boolOf_iff]
  cases boolOf a <;> cases boolOf b <;> decide

theorem not_boolOf_iff (a : Byte) : (!boolOf a) = true ↔ a = 0 := by
  rw [Bool.not_eq_true', Bool.eq_false_iff, Ne, boolOf_iff, not_ne_iff]

/-! ### Bits -/

section
variable {w : Nat}

/-- A value is the one made of its bits. -/
theorem eq_ofFnLE {v : BitVec w} {bit : Fin w → Bool} (h : ∀ k : Fin w, v.getLsbD k.val = bit k) :
    v = BitVec.ofFnLE bit :=
  BitVec.eq_of_getLsbD_eq fun k hk => by rw [h ⟨k, hk⟩, BitVec.getLsbD_ofFnLE, dif_pos hk]

theorem and_eq_ofFnLE (a b : BitVec w) :
    a &&& b = BitVec.ofFnLE fun k : Fin w => a.getLsbD k.val && b.getLsbD k.val :=
  eq_ofFnLE fun _ => BitVec.getLsbD_and

theorem or_eq_ofFnLE (a b : BitVec w) :
    a ||| b = BitVec.ofFnLE fun k : Fin w => a.getLsbD k.val || b.getLsbD k.val :=
  eq_ofFnLE fun _ => BitVec.getLsbD_or

theorem xor_eq_ofFnLE (a b : BitVec w) :
    a ^^^ b = BitVec.ofFnLE fun k : Fin w => a.getLsbD k.val ^^ b.getLsbD k.val :=
  eq_ofFnLE fun _ => BitVec.getLsbD_xor

theorem not_eq_ofNat (a : BitVec w) : ~~~a = BitVec.ofNat w (2 ^ w - 1 - a.toNat) := by
  rw [← BitVec.toNat_not, BitVec.ofNat_toNat, BitVec.setWidth_eq]

/-! ### Shifts -/

theorem shl_eq_ofNat (v : BitVec w) (n : Byte) :
    shl v n = BitVec.ofNat w (if n.toNat < w then v.toNat * 2 ^ n.toNat else 0) :=
  (apply_ite (BitVec.ofNat w) ..).symm

theorem shr_eq_ofNat (v : BitVec w) (n : Byte) :
    shr v n = BitVec.ofNat w (if n.toNat < w then v.toNat / 2 ^ n.toNat else 0) :=
  (apply_ite (BitVec.ofNat w) ..).symm

theorem pop1_live {s : State} {pre : List Byte} {b : Byte} (h : s.live = pre ++ [b]) :
    pop1 s = .ok (b, s.setSp (BitVec.ofNat 64 pre.length)) := by
  rw [pop1_eq, popN_live (by decide) (by rwa [bytesOf_byte])]

/-- Too few bytes for both are too few for the amount, or for the value once the amount is off. -/
theorem shift_underflow (f : BitVec w → Byte → BitVec w) {s : State} (h : s.sp.toNat < w / 8 + 1) :
    shift w f s = .error .stackUnderflow := by
  rw [shift, bind_error]
  cases hpop : pop1 s with
  | error c => exact .inl (congrArg _ (pop1_error hpop).1)
  | ok popped =>
    obtain ⟨hsp, -⟩ := pop1_sp hpop
    exact .inr ⟨popped, rfl, bind_error.2 (.inl (popN_underflow (by omega)))⟩

theorem shift_live (hw : 8 ∣ w) (f : BitVec w → Byte → BitVec w) {s : State} {pre : List Byte} {v : BitVec w}
    {n : Byte} (h : s.live = pre ++ bytesOf v ++ [n]) (hcap : s.sp.toNat ≤ s.params.stackCap) :
    ∃ t, shift w f s = .ok t ∧ t.live = pre ++ bytesOf (f v n) ∧ StackStep s t pre.length (w / 8) := by
  obtain ⟨t, hpush, hlive⟩ := pushN_after (f v n) ((List.append_assoc ..).symm ▸ h) hcap (by simp)
  refine ⟨t, ?_, hlive⟩
  simp only [shift, pop1_live h, bind, Except.bind, popN_live hw (State.live_setSp h)]
  exact hpush

end

end Sys2Proof.Machine

namespace Sys2Proof.Rules

open Sys2Proof.Machine

/-! ### The rules

As `compareRule_of_row`: what is read off the instruction's place and width is one decidable fact. -/

section
variable {w : Nat} {i : Instr} {op : Byte}

theorem binaryRule_of_row {f g : BitVec w → BitVec w → BitVec w} (hg : ∀ a b, g a b = f a b)
    (hexec : ∀ s, exec i s = finish s (binary w g s))
    (hrow : 8 ∣ w ∧ BitVec.ofNat 8 (rowOf i + 1) :: immBytes i = [op]) : BinaryRule w w f i op :=
  have ⟨hw, hop⟩ := hrow
  binaryRule_of_exec hw (by omega) (opcode_of_rowOf hop) hexec hg

/-- An instruction that is a unary operation g meets the rule of what g computes. -/
theorem unaryRule_of_row {f g : BitVec w → BitVec w} (hg : ∀ a, g a = f a)
    (hexec : ∀ s, exec i s = finish s (unary w g s))
    (hrow : 8 ∣ w ∧ BitVec.ofNat 8 (rowOf i + 1) :: immBytes i = [op]) : UnaryRule w w f i op :=
  have ⟨hw, hop⟩ := hrow
  ⟨opcode_of_rowOf hop, fun s => ⟨fun h => takesFault_of_exec (hexec s) (unary_underflow g h),
    fun _ a hlive hcap => hg a ▸ pushes_of_exec (hexec s) (unary_live hw le_rfl g hlive hcap)⟩⟩

/-- An instruction that is a shift g meets the rule of what g computes on numbers. -/
theorem shiftRule_of_row {f : Nat → Nat → Nat} {g : BitVec w → Byte → BitVec w}
    (hg : ∀ v n, g v n = BitVec.ofNat w (f v.toNat n.toNat)) (hexec : ∀ s, exec i s = finish s (shift w g s))
    (hrow : 8 ∣ w ∧ BitVec.ofNat 8 (rowOf i + 1) :: immBytes i = [op]) : ShiftRule w f i op :=
  have ⟨hw, hop⟩ := hrow
  ⟨opcode_of_rowOf hop, fun s => ⟨fun h => takesFault_of_exec (hexec s) (shift_underflow g h),
    fun _ v n hlive hcap => hg v n ▸ pushes_of_exec (hexec s) (shift_live hw g hlive hcap)⟩⟩

end

/-! ### The statements -/

/-- Settles O24: the byte pushed is that of a truth value, which the truth table of each instruction describes. -/
theorem logicalInstructionsWorkOnTruth : Obligations.LogicalInstructionsWorkOnTruth :=
  ⟨binaryRule_of_row (fun a b => byteOf_eq_ite (and_boolOf_iff a b)) (fun _ => rfl) (by decide),
    binaryRule_of_row (fun a b => byteOf_eq_ite (or_boolOf_iff a b)) (fun _ => rfl) (by decide),
    binaryRule_of_row (fun a b => byteOf_eq_ite (xor_boolOf_iff a b)) (fun _ => rfl) (by decide),
    unaryRule_of_row (fun a => byteOf_eq_ite (not_boolOf_iff a)) (fun _ => rfl) (by decide)⟩

/-- Settles O25: the operation of each name is the one on bits, and the complement is what is left of 2^W - 1, whatever
the width. -/
theorem bitwiseInstructionsWorkBitByBit : Obligations.BitwiseInstructionsWorkBitByBit :=
  ⟨binaryRule_of_row and_eq_ofFnLE (fun _ => rfl) (by decide),
    binaryRule_of_row and_eq_ofFnLE (fun _ => rfl) (by decide),
    binaryRule_of_row and_eq_ofFnLE (fun _ => rfl) (by decide),
    binaryRule_of_row and_eq_ofFnLE (fun _ => rfl) (by decide),
    binaryRule_of_row or_eq_ofFnLE (fun _ => rfl) (by decide),
    binaryRule_of_row or_eq_ofFnLE (fun _ => rfl) (by decide),
    binaryRule_of_row or_eq_ofFnLE (fun _ => rfl) (by decide),
    binaryRule_of_row or_eq_ofFnLE (fun _ => rfl) (by decide),
    binaryRule_of_row xor_eq_ofFnLE (fun _ => rfl) (by decide),
    binaryRule_of_row xor_eq_ofFnLE (fun _ => rfl) (by decide),
    binaryRule_of_row xor_eq_ofFnLE (fun _ => rfl) (by decide),
    binaryRule_of_row xor_eq_ofFnLE (fun _ => rfl) (by decide),
    unaryRule_of_row not_eq_ofNat (fun _ => rfl) (by decide),
    unaryRule_of_row not_eq_ofNat (fun _ => rfl) (by decide),
    unaryRule_of_row not_eq_ofNat (fun _ => rfl) (by decide),
    unaryRule_of_row not_eq_ofNat (fun _ => rfl) (by decide)⟩

/-- Settles O26: each instruction is a shift, and a shift is a product or quotient by the power of its amount below the
width, and zero from there. -/
theorem shiftsAreLogicalAndZeroPastTheWidth : Obligations.ShiftsAreLogicalAndZeroPastTheWidth :=
  ⟨shiftRule_of_row shl_eq_ofNat (fun _ => rfl) (by decide),
    shiftRule_of_row shl_eq_ofNat (fun _ => rfl) (by decide),
    shiftRule_of_row shl_eq_ofNat (fun _ => rfl) (by decide),
    shiftRule_of_row shl_eq_ofNat (fun _ => rfl) (by decide),
    shiftRule_of_row shr_eq_ofNat (fun _ => rfl) (by decide),
    shiftRule_of_row shr_eq_ofNat (fun _ => rfl) (by decide),
    shiftRule_of_row shr_eq_ofNat (fun _ => rfl) (by decide),
    shiftRule_of_row shr_eq_ofNat (fun _ => rfl) (by decide)⟩

end Sys2Proof.Rules
end

section
/-! SUPPORT. Control flow (spec 44_control_flow.md R330 to R338): what each of the six bodies answers on a stack as it
is drawn, and that an instruction with such a body meets its rule. -/

namespace Sys2Proof.Machine

/-! ### Stacks as they are drawn -/

theorem State.sp_eq_of_live {s : State} {bs : List Byte} (h : s.live = bs) : s.sp = BitVec.ofNat 64 bs.length := by
  rw [← h, State.length_live, BitVec.ofNat_toNat, BitVec.setWidth_eq]

theorem State.stackByte_of_live {s : State} {pre bs : List Byte} (h : s.live = pre ++ bs) {k : Nat}
    (hk : k < pre.length) : s.stackByte k = pre[k] := by
  obtain ⟨-, hbytes⟩ := (s.live_eq_iff _).1 h
  rw [hbytes k (by rw [List.length_append]; omega), List.getElem_append_left hk]

/-- The stack left when the top bytes are off counts the bytes below them. -/
theorem State.toNat_setSp_of_live {s : State} {pre bs : List Byte} (h : s.live = pre ++ bs) :
    (s.setSp (BitVec.ofNat 64 pre.length)).sp.toNat = pre.length := by
  rw [← State.length_live, State.live_setSp h]

/-- Frames of adjacent ranges compose. -/
theorem StackStep.trans {s t u : State} {k n m : Nat} (hst : StackStep s t k n) (htu : StackStep t u (k + n) m) :
    StackStep s u k (n + m) := by
  obtain ⟨est, hst⟩ := hst
  obtain ⟨etu, htu⟩ := htu
  refine ⟨?_, fun i hi => (htu i (by omega)).trans (hst i (by omega))⟩
  rw [etu, est]

/-- What CALL and RET make of a state that differs in `sp` and the stack. -/
theorem StackStep.setFp_setPc {s t : State} {k n : Nat} (h : StackStep s t k n) (fp pc : Word) :
    (t.setFp fp).setPc pc = { s with pc := pc, sp := t.sp, fp := fp, stack := t.stack } := by
  obtain ⟨e, -⟩ := h
  rw [e]
  rfl

/-! ### Sequences that fault -/

/-- A sequence raises c if its first part raises nothing else and the rest raises it after that part. -/
theorem bind_raises {α β : Type} {x : Except Cause α} {f : α → Except Cause β} {c : Cause}
    (hx : ∀ d, x = .error d → d = c) (hf : ∀ a, x = .ok a → f a = .error c) : (x >>= f) = .error c := by
  cases h : x with
  | error d => exact congrArg _ (hx d h)
  | ok a => exact hf a h

theorem popN_bind_underflow {β : Type} {w : Nat} {s : State} {f : BitVec w × State → Except Cause β}
    (hf : ∀ v, w / 8 ≤ s.sp.toNat → f (v, s.setSp (s.sp - BitVec.ofNat 64 (w / 8))) = .error .stackUnderflow) :
    (popN w s >>= f) = .error .stackUnderflow := by
  refine bind_raises (fun _ h => (popN_error h).1) fun (v, t) h => ?_
  obtain ⟨hle, -, rfl⟩ := popN_ok h
  exact hf v hle

theorem pop1_underflow {s : State} (h : s.sp.toNat < 1) : pop1 s = .error .stackUnderflow := if_pos h

theorem pop1_bind_underflow {β : Type} {s : State} {f : Byte × State → Except Cause β}
    (hf : 1 ≤ s.sp.toNat →
      f (s.stackByte (s.sp.toNat - 1), s.setSp (s.sp - BitVec.ofNat 64 1)) = .error .stackUnderflow) :
    (pop1 s >>= f) = .error .stackUnderflow := by
  by_cases h : s.sp.toNat < 1
  · exact bind_error.2 (.inl (pop1_underflow h))
  · rw [pop1, if_neg h]
    exact hf (not_lt.1 h)

theorem pushN_sp {w : Nat} {v : BitVec w} {s t : State} (h : pushN v s = .ok t) (h64 : s.params.stackCap < 2 ^ 64) :
    t.sp.toNat = s.sp.toNat + w / 8 ∧ t.params = s.params := by
  obtain ⟨hroom, rfl⟩ := pushBytes_ok h
  refine ⟨?_, rfl⟩
  rw [length_bytesOf] at hroom ⊢
  rw [State.setSp_sp, BitVec.toNat_add, BitVec.toNat_ofNat]
  omega

/-! ### Targets -/

theorem popTarget_live {w : Nat} (hw : 8 ∣ w) {s : State} {pre : List Byte} {t : BitVec w}
    (h : s.live = pre ++ bytesOf t) :
    popTarget w s = .ok (BitVec.ofNat 64 t.toNat, s.setSp (BitVec.ofNat 64 pre.length)) := by
  rw [popTarget, popN_live hw h, BitVec.ofNat_toNat]
  rfl

theorem popTarget_underflow {w : Nat} {s : State} (h : s.sp.toNat < w / 8) :
    popTarget w s = .error .stackUnderflow := by
  rw [popTarget, popN_underflow h]
  rfl

theorem popTarget_sp {w : Nat} {s u : State} {v : Word} (h : popTarget w s = .ok (v, u)) :
    u.sp.toNat + w / 8 = s.sp.toNat := by
  simp only [popTarget, bind_ok, Prod.exists] at h
  obtain ⟨t, u', hpop, heq⟩ := h
  obtain ⟨-, rfl⟩ := Prod.mk.inj (Except.ok.inj heq)
  exact (popN_sp hpop).1

theorem toNat_ofNat_target {w : Nat} (hle : w ≤ 64) (t : BitVec w) : (BitVec.ofNat 64 t.toNat).toNat = t.toNat :=
  Nat.mod_eq_of_lt (t.isLt.trans_le (Nat.pow_le_pow_right (by decide) hle))

/-- A target of at most 64 bits is checked as the number it denotes. -/
theorem jumpTo_ofNat {w : Nat} (hle : w ≤ 64) (t : BitVec w) (s : State) :
    jumpTo (BitVec.ofNat 64 t.toNat) s =
      if s.codeLen ≤ t.toNat then .error .invalidJumpTarget else .ok (s.setPc (BitVec.ofNat 64 t.toNat)) := by
  rw [jumpTo, checkTarget, toNat_ofNat_target hle]
  split_ifs <;> rfl

/-! ### JMP and JMPIF -/

theorem jump_underflow {w : Nat} {s : State} (h : s.sp.toNat < w / 8) : jump w s = .error .stackUnderflow := by
  rw [jump, popTarget_underflow h]
  rfl

theorem jump_live {w : Nat} (hw : 8 ∣ w) {s : State} {pre : List Byte} {t : BitVec w}
    (h : s.live = pre ++ bytesOf t) :
    jump w s = jumpTo (BitVec.ofNat 64 t.toNat) (s.setSp (BitVec.ofNat 64 pre.length)) := by
  rw [jump, popTarget_live hw h]
  rfl

/-- Too few bytes for both are too few for the target, or for the condition once the target is off. -/
theorem jumpIf_underflow {w : Nat} {s : State} (h : s.sp.toNat < w / 8 + 1) :
    jumpIf w s = .error .stackUnderflow :=
  bind_raises (fun _ => popTarget_error) fun _ hpop => by
    have hsp := popTarget_sp hpop
    exact bind_error.2 (.inl (pop1_underflow (by omega)))

theorem jumpIf_live {w : Nat} (hw : 8 ∣ w) {s : State} {pre : List Byte} {c : Byte} {t : BitVec w}
    (h : s.live = pre ++ [c] ++ bytesOf t) :
    jumpIf w s =
      if c = 0 then .ok (s.setSp (BitVec.ofNat 64 pre.length))
      else jumpTo (BitVec.ofNat 64 t.toNat) (s.setSp (BitVec.ofNat 64 pre.length)) := by
  simp only [jumpIf, popTarget_live hw h, pop1_live (State.live_setSp h), bind, Except.bind, boolOf_iff,
    State.setSp_setSp, ite_not]

/-! ### CALL -/

theorem call_underflow {w : Nat} {s : State} (h : s.sp.toNat < w / 8) : call w s = .error .stackUnderflow := by
  rw [call, popTarget_underflow h]
  rfl

section
variable {w : Nat} (hw : 8 ∣ w) {s : State} {pre : List Byte} {t : BitVec w} (h : s.live = pre ++ bytesOf t)
  (h64 : s.params.stackCap < 2 ^ 64)

include hw h h64

/-- With the target off, a stack without room for both words has none for the first, or none for the second once the
first is on. -/
theorem call_overflow (hfull : s.params.stackCap < pre.length + 16) : call w s = .error .stackOverflow := by
  rw [call, popTarget_live hw h, bind_error]
  refine .inr ⟨_, rfl, bind_raises (fun _ hc => (pushN_error hc).1) fun u hu => ?_⟩
  obtain ⟨husp, hcap⟩ := pushN_sp hu h64
  refine bind_error.2 (.inl (pushN_overflow _ ?_))
  rw [hcap, State.setSp_params, husp, State.toNat_setSp_of_live h]
  omega

/-- With room the frame is laid down, and the rest is the jump. -/
theorem call_live (hroom : pre.length + 16 ≤ s.params.stackCap) :
    ∃ u, u.live = pre ++ bytesOf s.pc ++ bytesOf s.fp ∧ StackStep s u pre.length 16 ∧
      call w s = jumpTo (BitVec.ofNat 64 t.toNat) (u.setFp u.sp) := by
  obtain ⟨v, hpc, hvlive, -, hv⟩ := pushN_live s.pc (State.live_setSp h) (by simp; omega) (by omega)
  have hvcap : v.params = s.params := by rw [hv.1]; rfl
  obtain ⟨u, hfp, hulive, -, hu⟩ := pushN_live s.fp hvlive (by simp [hvcap]; omega) (by simp; omega)
  have hvfp : v.fp = s.fp := by rw [hv.1]; rfl
  rw [List.length_append, length_bytesOf] at hu
  refine ⟨u, hulive, hv.of_setSp.trans hu, ?_⟩
  simp only [call, popTarget_live hw h, bind, Except.bind, State.setSp_pc, hpc, hvfp, hfp]

end

/-! ### RET -/

/-- RET underflows when one of its checks before the push fails (44_control_flow.md R336). The count of the arguments is
read once all that lies above it is off. -/
theorem ret_underflow {w : Nat} {s : State}
    (h : s.sp.toNat < w / 8 ∨ s.sp.toNat - w / 8 < s.fp.toNat ∨ s.fp.toNat < 17 ∨
      s.fp.toNat - 17 < (s.stackByte (s.fp.toNat - 17)).toNat) : ret w s = .error .stackUnderflow := by
  refine popN_bind_underflow fun v hv => ?_
  have hsp := toNat_sub_le hv
  dsimp only
  split_ifs with hfp
  · rfl
  refine popN_bind_underflow fun savedFp hfpWord => popN_bind_underflow fun savedPc hpcWord =>
    pop1_bind_underflow fun hcount => bind_error.2 (.inl (dropBytes_underflow ?_))
  simp only [State.setSp_sp, State.setSp_fp, State.setSp_setSp, State.stackByte_setSp] at *
  rw [toNat_sub_le hcount, toNat_sub_le hpcWord, toNat_sub_le hfpWord] at *
  rw [show s.fp.toNat - 64 / 8 - 64 / 8 - 1 = s.fp.toNat - 17 by omega]
  omega

/-- A return takes the frame off from `fp` down, and puts the value where the arguments began. -/
theorem ret_live {w : Nat} (hw : 8 ∣ w) {s : State} {pre args frame locals : List Byte} {argc : Byte}
    {savedPc savedFp : Word} {v : BitVec w}
    (hframe : frame = pre ++ args ++ [argc] ++ bytesOf savedPc ++ bytesOf savedFp)
    (h : s.live = frame ++ locals ++ bytesOf v) (hargs : args.length = argc.toNat) (hfp : s.fp.toNat = frame.length)
    (hcap : s.sp.toNat ≤ s.params.stackCap) :
    ∃ t, ret w s = .ok ((t.setFp savedFp).setPc savedPc) ∧ t.live = pre ++ bytesOf v ∧
      StackStep s t pre.length (w / 8) := by
  have hchecked : ¬ s.fp.toNat > (frame ++ locals).length := by
    rw [hfp, List.length_append]
    omega
  have hfpw : s.fp = BitVec.ofNat 64 frame.length := by
    rw [← hfp, BitVec.ofNat_toNat, BitVec.setWidth_eq]
  obtain ⟨t, hpush, hlive, hstep⟩ := pushN_after (r := w) v (pre := pre)
    (bs := args ++ [argc] ++ bytesOf savedPc ++ bytesOf savedFp ++ locals ++ bytesOf v)
    (by rw [h, hframe]; simp only [List.append_assoc]) hcap (by simp; omega)
  refine ⟨t, ?_, hlive, hstep⟩
  have hfpWord := State.live_setSp (h.trans (List.append_assoc ..))
  rw [hframe] at hfpWord hfpw
  have hpcWord := State.live_setSp hfpWord
  have hcount := State.live_setSp hpcWord
  have harg := State.live_setSp hcount
  have hdrop := hargs ▸ dropBytes_live harg
  simp only [State.setSp_setSp] at hpcWord hcount hdrop
  simp only [ret, popN_live hw h, bind, Except.bind, State.toNat_setSp_of_live h, State.setSp_fp, if_neg hchecked]
  simp only [hfpw, State.setSp_setSp, popN_live (w := 64) (by decide) hfpWord,
    popN_live (w := 64) (by decide) hpcWord, pop1_live hcount, hdrop, hpush]

/-! ### ARGC and ARG -/

/-- `FrameRead` at an offset below `fp`. -/
theorem frameRead_sub (a n : Nat) (s : State) :
    frameRead ((a : Int) - n) s =
      if a < n ∨ s.sp.toNat + n ≤ a then .error .stackUnderflow else .ok (s.stackByte (a - n)) := by
  by_cases hlow : a < n
  · rw [frameRead, if_pos (by omega), if_pos (.inl hlow)]
  by_cases htop : s.sp.toNat + n ≤ a
  · rw [frameRead, if_neg (by omega), if_pos (by omega), if_pos (.inr htop)]
  · rw [frameRead, if_neg (by omega), if_neg (by omega), if_neg (by omega), Int.toNat_sub]

theorem argCount_eq (s : State) :
    argCount s =
      if s.fp.toNat < 17 ∨ s.sp.toNat + 17 ≤ s.fp.toNat then .error .stackUnderflow
      else pushN (s.stackByte (s.fp.toNat - 17)) s := by
  have hread := frameRead_sub s.fp.toNat 17 s
  rw [Nat.cast_ofNat] at hread
  rw [argCount, hread]
  split_ifs
  · rfl
  · exact push1_eq _ s

theorem argByte_underflow {s : State} (h : s.sp.toNat < 1) : argByte s = .error .stackUnderflow := by
  rw [argByte, pop1_underflow h]
  rfl

theorem argByte_live {s : State} {pre : List Byte} {i : Byte} (h : s.live = pre ++ [i]) :
    argByte s =
      if s.fp.toNat < 18 + i.toNat ∨ pre.length + (18 + i.toNat) ≤ s.fp.toNat then .error .stackUnderflow
      else pushN (s.stackByte (s.fp.toNat - (18 + i.toNat))) (s.setSp (BitVec.ofNat 64 pre.length)) := by
  have hread := frameRead_sub s.fp.toNat (18 + i.toNat) (s.setSp (BitVec.ofNat 64 pre.length))
  rw [Nat.cast_add, Nat.cast_ofNat, ← sub_sub, ← State.length_live, State.live_setSp h] at hread
  simp only [argByte, pop1_live h, bind, Except.bind, State.setSp_fp, hread]
  split_ifs
  · rfl
  · exact push1_eq _ _

end Sys2Proof.Machine

namespace Sys2Proof.Rules

open Sys2Proof.Machine

/-! ### The rules

As `compareRule_of_row`: what is read off the instruction's place and width is one decidable fact. -/

section
variable {w : Nat} {i : Instr} {op : Byte}

theorem jumpRule_of_row (hexec : ∀ s, exec i s = finish s (jump w s))
    (hrow : (8 ∣ w ∧ w ≤ 64) ∧ BitVec.ofNat 8 (rowOf i + 1) :: immBytes i = [op]) : JumpRule w i op := by
  obtain ⟨⟨hw, hle⟩, hop⟩ := hrow
  refine ⟨opcode_of_rowOf hop,
    fun s => ⟨fun h => takesFault_of_exec (hexec s) (jump_underflow h), fun pre t hlive => ?_⟩⟩
  have hjump := (jump_live hw hlive).trans (jumpTo_ofNat hle t _)
  refine ⟨fun hend => takesFault_of_exec (hexec s) (hjump.trans (if_pos hend)), fun hin => ?_⟩
  rw [hexec, hjump]
  exact congrArg (finish s) (if_neg (not_le.2 hin))

theorem jumpIfRule_of_row (hexec : ∀ s, exec i s = finish s (jumpIf w s))
    (hrow : (8 ∣ w ∧ w ≤ 64) ∧ BitVec.ofNat 8 (rowOf i + 1) :: immBytes i = [op]) : JumpIfRule w i op := by
  obtain ⟨⟨hw, hle⟩, hop⟩ := hrow
  refine ⟨opcode_of_rowOf hop,
    fun s => ⟨fun h => takesFault_of_exec (hexec s) (jumpIf_underflow h), fun pre c t hlive => ?_⟩⟩
  have hjump := jumpIf_live hw hlive
  rw [jumpTo_ofNat hle] at hjump
  refine ⟨fun hc => ?_, fun hc hend => takesFault_of_exec (hexec s) ?_, fun hc hin => ?_⟩
  · rw [hexec, hjump, if_pos hc]
    rfl
  · rw [hjump, if_neg hc]
    exact if_pos hend
  · rw [hexec, hjump, if_neg hc]
    exact congrArg (finish s) (if_neg (not_le.2 hin))

theorem callRule_of_row (hexec : ∀ s, exec i s = finish s (call w s))
    (hrow : (8 ∣ w ∧ w ≤ 64) ∧ BitVec.ofNat 8 (rowOf i + 1) :: immBytes i = [op]) : CallRule w i op := by
  obtain ⟨⟨hw, hle⟩, hop⟩ := hrow
  refine ⟨opcode_of_rowOf hop,
    fun s => ⟨fun h => takesFault_of_exec (hexec s) (call_underflow h), fun pre t hlive h64 =>
      ⟨fun hfull => takesFault_of_exec (hexec s) (call_overflow hw hlive h64 hfull), fun hroom => ?_⟩⟩⟩
  obtain ⟨u, hulive, hstep, hcall⟩ := call_live hw hlive h64 hroom
  have husp : u.sp = BitVec.ofNat 64 (pre.length + 16) := by
    rw [State.sp_eq_of_live hulive]
    simp
  have hcode : (u.setFp u.sp).codeLen = s.codeLen := by rw [hstep.1]; rfl
  rw [jumpTo_ofNat hle, hcode] at hcall
  refine ⟨fun hend => takesFault_of_exec (hexec s) (hcall.trans (if_pos hend)),
    fun hin => ⟨(u.setFp u.sp).setPc (BitVec.ofNat 64 t.toNat), ?_, hulive, ?_, fun _ => hstep.stackByte⟩⟩
  · rw [hexec, hcall, if_neg (not_le.2 hin), finish_ok]
  · rw [hstep.setFp_setPc, husp]

theorem returnRule_of_row (hexec : ∀ s, exec i s = finish s (ret w s))
    (hrow : 8 ∣ w ∧ BitVec.ofNat 8 (rowOf i + 1) :: immBytes i = [op]) : ReturnRule w i op := by
  obtain ⟨hw, hop⟩ := hrow
  have faults (s : State) hcheck : TakesFault i s .stackUnderflow :=
    takesFault_of_exec (hexec s) (ret_underflow hcheck)
  refine ⟨opcode_of_rowOf hop, fun s => ⟨fun h => faults s (.inl h), fun _ h => faults s (.inr (.inl h)),
    fun h => faults s (.inr (.inr (.inl h))), fun _ h => faults s (.inr (.inr (.inr h))),
    fun pre args locals argc savedPc savedFp v hlive hargs hfp hcap => ?_⟩⟩
  obtain ⟨t, hret, htlive, hstep⟩ := ret_live hw rfl hlive hargs (hfp.trans (by simp; omega)) hcap
  have htsp : t.sp = BitVec.ofNat 64 (pre.length + w / 8) := by
    rw [State.sp_eq_of_live htlive, List.length_append, length_bytesOf]
  refine ⟨(t.setFp savedFp).setPc savedPc, by rw [hexec, hret, finish_ok], htlive, ?_, fun _ => hstep.stackByte⟩
  rw [hstep.setFp_setPc, htsp]

/-- The return of a call undoes it: the frame that the one lays down is the frame that the other takes off. -/
theorem callReturnRule_of_rules {r : Nat} {j : Instr} {op' : Byte} (hle : w ≤ 64) (hcall : CallRule w i op)
    (hret : ReturnRule r j op') : CallReturnRule w r i j := by
  intro s pre args argc target hlive hargs hroom h64 htarget
  obtain ⟨-, hcall⟩ := hcall
  obtain ⟨-, hpopped⟩ := hcall s
  obtain ⟨-, hframed⟩ := hpopped _ target hlive h64
  obtain ⟨-, hjumps⟩ := hframed (by simp; omega)
  obtain ⟨t, hexec, htlive, ht, -⟩ := hjumps htarget
  refine ⟨t, hexec, by rw [ht]; exact toNat_ofNat_target hle target, fun u locals v hfp hulive hcap => ?_⟩
  obtain ⟨-, hret⟩ := hret
  obtain ⟨-, -, -, -, hreturns⟩ := hret u
  rw [htlive] at hulive
  have hufp : u.fp.toNat = pre.length + args.length + 17 := by
    rw [hfp, ht]
    simp
    omega
  obtain ⟨x, hxexec, hxlive, hx, hframe⟩ := hreturns pre args locals argc s.pc s.fp v hulive hargs hufp hcap
  refine ⟨x, hxexec, hxlive, ?_, by rw [hx], by rw [hx], fun k hk => ?_⟩
  · rw [State.sp_of_live hxlive, length_bytesOf]
  · rw [hframe k (.inl hk), State.stackByte_of_live (pre := pre) (by simpa using hulive) hk,
      State.stackByte_of_live (pre := pre) (by simpa using hlive) hk]

end

/-! ### The statements -/

/-- Settles O27: each instruction is a jump, whose body pops the target and then checks it. -/
theorem jumpGoesToACheckedTarget : Obligations.JumpGoesToACheckedTarget :=
  ⟨jumpRule_of_row (fun _ => rfl) (by decide), jumpRule_of_row (fun _ => rfl) (by decide),
    jumpRule_of_row (fun _ => rfl) (by decide), jumpRule_of_row (fun _ => rfl) (by decide)⟩

/-- Settles O28: the condition decides between the state with both operands off and the jump from it. -/
theorem conditionalJumpTestsTheByteBelow : Obligations.ConditionalJumpTestsTheByteBelow :=
  ⟨jumpIfRule_of_row (fun _ => rfl) (by decide), jumpIfRule_of_row (fun _ => rfl) (by decide),
    jumpIfRule_of_row (fun _ => rfl) (by decide), jumpIfRule_of_row (fun _ => rfl) (by decide)⟩

/-- Settles O29: a call is two pushes with the target off, and then a jump. -/
theorem callLaysDownTheFrame : Obligations.CallLaysDownTheFrame :=
  ⟨callRule_of_row (fun _ => rfl) (by decide), callRule_of_row (fun _ => rfl) (by decide),
    callRule_of_row (fun _ => rfl) (by decide), callRule_of_row (fun _ => rfl) (by decide)⟩

/-- Settles O30: a return pops its frame word by word from `fp`, and what it pushes back fits where its value was. -/
theorem returnUndoesTheFrame : Obligations.ReturnUndoesTheFrame :=
  ⟨returnRule_of_row (fun _ => rfl) (by decide), returnRule_of_row (fun _ => rfl) (by decide),
    returnRule_of_row (fun _ => rfl) (by decide), returnRule_of_row (fun _ => rfl) (by decide)⟩

/-- Settles O31, from the rules of CALL and RET alone (O29, O30). -/
theorem callThenReturnNetEffect : Obligations.CallThenReturnNetEffect := by
  obtain ⟨call8, call16, call32, call64⟩ := callLaysDownTheFrame
  obtain ⟨ret8, ret16, ret32, ret64⟩ := returnUndoesTheFrame
  exact ⟨callReturnRule_of_rules (by decide) call8 ret8, callReturnRule_of_rules (by decide) call8 ret16,
    callReturnRule_of_rules (by decide) call8 ret32, callReturnRule_of_rules (by decide) call8 ret64,
    callReturnRule_of_rules (by decide) call16 ret8, callReturnRule_of_rules (by decide) call16 ret16,
    callReturnRule_of_rules (by decide) call16 ret32, callReturnRule_of_rules (by decide) call16 ret64,
    callReturnRule_of_rules (by decide) call32 ret8, callReturnRule_of_rules (by decide) call32 ret16,
    callReturnRule_of_rules (by decide) call32 ret32, callReturnRule_of_rules (by decide) call32 ret64,
    callReturnRule_of_rules (by decide) call64 ret8, callReturnRule_of_rules (by decide) call64 ret16,
    callReturnRule_of_rules (by decide) call64 ret32, callReturnRule_of_rules (by decide) call64 ret64⟩

/-- Settles O32: the frame read fails outside the live stack, and then the push where there is no room. -/
theorem argcReadsTheCountInTheFrame : Obligations.ArgcReadsTheCountInTheFrame := by
  have hexec (s : State) : exec .argc s = finish s (argCount s) := rfl
  refine ⟨opcode_of_rowOf (by decide), fun s => ⟨fun hlow => ?_, fun htop => ?_, fun hlow htop => ⟨fun hfull => ?_,
    fun hroom h64 => ?_⟩⟩⟩
  · exact takesFault_of_exec (hexec s) ((argCount_eq s).trans (if_pos (.inl hlow)))
  · exact takesFault_of_exec (hexec s) ((argCount_eq s).trans (if_pos (.inr htop)))
  · refine takesFault_of_exec (hexec s) ?_
    rw [argCount_eq, if_neg (by omega), pushN_overflow _ (by omega)]
  · rw [← bytesOf_byte]
    refine pushes_of_exec (hexec s) ?_
    rw [argCount_eq, if_neg (by omega)]
    obtain ⟨t, hpush, hlive, -, hframe⟩ := pushN_live (s.stackByte (s.fp.toNat - 17)) (s := s) rfl
      (by rw [State.length_live]; omega) (by rw [State.length_live]; omega)
    exact ⟨t, hpush, hlive, hframe⟩

/-- Settles O33: the frame read is checked with the index off the stack, and the byte read fits in its place. -/
theorem argReadsAnArgumentByte : Obligations.ArgReadsAnArgumentByte := by
  have hexec (s : State) : exec .arg s = finish s (argByte s) := rfl
  refine ⟨opcode_of_rowOf (by decide), fun s => ⟨fun hempty => ?_, fun pre i hlive => ⟨fun hlow => ?_, fun htop => ?_,
    fun hlow htop hcap => ?_⟩⟩⟩
  · exact takesFault_of_exec (hexec s) (argByte_underflow hempty)
  · exact takesFault_of_exec (hexec s) ((argByte_live hlive).trans (if_pos (.inl hlow)))
  · exact takesFault_of_exec (hexec s) ((argByte_live hlive).trans (if_pos (.inr (by omega))))
  · rw [← bytesOf_byte, Nat.sub_sub]
    refine pushes_of_exec (hexec s) ?_
    rw [argByte_live hlive, if_neg (by omega)]
    exact pushN_after _ hlive hcap (by simp)

end Sys2Proof.Rules
end

section
/-! SUPPORT. PUSH, POP, LOAD and STORE (spec 45_stack_and_store.md R381 to R405): what each of the four bodies answers,
what a step at a PUSH opcode decodes, and that an instruction with such a body meets its rule. -/

namespace Sys2Proof

/-- Under the default map the opcode k + 1 is decoded by the row k. -/
theorem decode_defaultOpmap_cons {k : Nat} {row : Row} (hrow : rows[k]? = some row) (bs : List Byte) :
    decode defaultOpmap (BitVec.ofNat 8 (k + 1) :: bs) = readRow row bs := by
  have hk : k < numInstrs := (List.getElem?_eq_some_iff.1 hrow).1
  have hop : defaultOpmap[k]? = some (BitVec.ofNat 8 (k + 1)) := by simp [defaultOpmap, hk]
  simp only [decode, (OpMap.idxOf?_eq_some_iff defaultOpmap_wellFormed).2 hop, hrow]

end Sys2Proof

namespace Sys2Proof.Machine

/-! ### PUSH -/

theorem fetch_of_truncated {s : State} (h : decode s.params.opmap (s.code.drop s.pc.toNat) = .error .truncated) :
    fetch s = .error .codeOverrun := by
  rw [fetch, h]
  exact ite_self _

theorem pushImm_overrun {w : Nat} (imm : BitVec w) {s : State} (h : s.codeLen < s.pc.toNat + w / 8) :
    pushImm imm s = .error .codeOverrun := if_pos h

/-- With the whole immediate in the code, PUSH is the push from the state with pc past it. -/
theorem pushImm_of_le {w : Nat} (imm : BitVec w) {s : State} (h : s.pc.toNat + w / 8 ≤ s.codeLen) :
    pushImm imm s = pushN imm (s.setPc (s.pc + BitVec.ofNat 64 (w / 8))) := if_neg (not_lt.2 h)

theorem toNat_add_ofNat {x : Word} {n : Nat} (h : x.toNat + n < 2 ^ 64) :
    (x + BitVec.ofNat 64 n).toNat = x.toNat + n := by
  rw [BitVec.toNat_add, BitVec.toNat_ofNat]
  omega

/-! ### POP -/

theorem dropBytes_of_le {n : Nat} {s : State} (h : n ≤ s.sp.toNat) :
    dropBytes n s = .ok (s.setSp (BitVec.ofNat 64 (s.sp.toNat - n))) := by
  simpa using dropBytes_live (s.live_split n h)

/-! ### LOAD and STORE -/

/-- What follows a store address gets the number that the operand denotes. -/
theorem popAddress_bind {β : Type} (w : Nat) (s : State) (f : Nat × State → Except Cause β) :
    (popAddress w s >>= f) = popN w s >>= fun x => f (x.1.toNat, x.2) := by
  rw [popAddress]
  cases popN w s <;> rfl

theorem load_underflow {w : Nat} {s : State} (h : s.sp.toNat < w / 8) : load w s = .error .stackUnderflow := by
  rw [load, popAddress_bind, popN_underflow h]
  rfl

theorem load_live {w : Nat} (hw : 8 ∣ w) {s : State} {pre : List Byte} {a : BitVec w}
    (h : s.live = pre ++ bytesOf a) :
    load w s = if s.params.storeCap ≤ a.toNat then .error .outOfBounds
      else pushN (s.storeByte a.toNat) (s.setSp (BitVec.ofNat 64 pre.length)) := by
  rw [load, popAddress_bind, popN_live hw h]
  simp only [bind, Except.bind, storeRead, push1_eq, State.setSp_params, ge_iff_le]
  split_ifs <;> rfl

/-- Too few bytes for both are too few for the address, or for the value once the address is off. -/
theorem storeByteAt_underflow {w : Nat} {s : State} (h : s.sp.toNat < w / 8 + 1) :
    storeByteAt w s = .error .stackUnderflow := by
  rw [storeByteAt, popAddress_bind]
  refine popN_bind_underflow fun a hle => bind_error.2 (.inl (pop1_underflow ?_))
  rw [State.setSp_sp, toNat_sub_le hle]
  omega

theorem storeByteAt_live {w : Nat} (hw : 8 ∣ w) {s : State} {pre : List Byte} {v : Byte} {a : BitVec w}
    (h : s.live = pre ++ [v] ++ bytesOf a) :
    storeByteAt w s = if s.params.storeCap ≤ a.toNat then .error .outOfBounds
      else .ok ((s.setSp (BitVec.ofNat 64 pre.length)).setStore (s.store.write a.toNat v)) := by
  rw [storeByteAt, popAddress_bind, popN_live hw h]
  simp only [bind, Except.bind, pop1_live (State.live_setSp h), storeWrite, State.setSp_setSp, State.setSp_params,
    State.setSp_store, ge_iff_le]

end Sys2Proof.Machine

namespace Sys2Proof.Rules

open Sys2Proof.Machine

/-! ### The rules

As `compareRule_of_row`: what is read off the instruction's place and width is one decidable fact. -/

theorem pushRule_of_exec {w : Nat} {mk : BitVec w → Instr}
    (hexec : ∀ imm s, exec (mk imm) s = finish s (pushImm imm s)) : PushRule w mk := by
  refine fun s imm => ⟨fun hend => takesFault_of_exec (hexec imm s) (pushImm_overrun imm hend),
    fun hin hfull => takesFault_of_exec (hexec imm s) ?_, fun hin hcode hroom h64 => ?_⟩
  · exact (pushImm_of_le imm hin).trans (pushN_overflow _ hfull)
  · have hpush := pushImm_of_le imm hin
    obtain ⟨t, ht, hlive, -, hfields, hbytes⟩ := pushN_live imm
      (s := s.setPc (s.pc + BitVec.ofNat 64 (w / 8))) (pre := s.live) rfl
      (by rwa [State.length_live]) (by rw [State.length_live]; omega)
    have hpc : t.pc = s.pc + BitVec.ofNat 64 (w / 8) := congrArg State.pc hfields
    rw [State.length_live] at hbytes
    refine ⟨t, by rw [hexec, hpush, ht, finish_ok], hlive, ?_, by rwa [hpc], hbytes⟩
    rw [hpc, toNat_add_ofNat (by omega)]

/-- A step at an opcode that reads an immediate is the fetch, and then the instruction with the code bytes as its
immediate. -/
theorem pushStepRule_of_pushRule {w : Nat} (hw : 8 ∣ w) {mk : BitVec w → Instr} {op : Byte}
    (hdecode : ∀ bs, decode defaultOpmap (op :: bs) = readImm w mk bs) (hpush : PushRule w mk) :
    PushStepRule (w / 8) op := by
  intro s bs hrun hcmd hmap hlen h64 hcode
  have hread : decode s.params.opmap (s.code.drop s.pc.toNat) = readImm w mk bs := by rw [hmap, hcode, hdecode]
  have hend : s.pc.toNat + 1 + bs.length = s.codeLen := by
    have hdrop := congrArg List.length hcode
    rw [List.length_drop, List.length_cons] at hdrop
    rw [State.codeLen]
    omega
  have hpc : (s.pc + 1).toNat = s.pc.toNat + 1 := toNat_add_ofNat (n := 1) (by omega)
  have hstep (hin : w / 8 ≤ bs.length) :
      step s = exec (mk (ofBytes w (bs.take (w / 8)))) (s.setPc (s.pc + 1)) :=
    step_fetch_ok hcmd hrun (fetch_of_decode (hread.trans (if_neg (not_lt.2 hin))))
  obtain ⟨-, hoverflow, hcompletes⟩ := hpush (s.setPc (s.pc + 1)) (ofBytes w (bs.take (w / 8)))
  rw [State.setPc_pc, hpc] at hoverflow hcompletes
  refine ⟨fun hcut => ?_, fun hin hfull => ?_, fun hin hroom => ?_⟩
  · exact step_faults_of_fetch_error hrun hcmd (fetch_of_truncated (hread.trans (if_pos hcut)))
  · rw [hstep hin]
    exact hoverflow (hend ▸ Nat.add_le_add_left hin _) hfull
  · rw [hstep hin]
    rw [bytesOf_ofBytes hw _ (List.length_take_of_le hin)] at hcompletes
    exact hcompletes (hend ▸ Nat.add_le_add_left hin _) hlen hroom h64

theorem popRule_of_row {n : Nat} {i : Instr} {op : Byte} (hexec : ∀ s, exec i s = finish s (dropBytes n s))
    (hop : BitVec.ofNat 8 (rowOf i + 1) :: immBytes i = [op]) : PopRule n i op := by
  refine ⟨opcode_of_rowOf hop, fun s => ⟨fun h => takesFault_of_exec (hexec s) (dropBytes_underflow h), fun h => ?_⟩⟩
  rw [hexec, dropBytes_of_le h]
  rfl

section
variable {w : Nat} {i : Instr} {op : Byte}

/-- The byte loaded fits where the address was, which has at least 8 bits. -/
theorem loadRule_of_row (hexec : ∀ s, exec i s = finish s (load w s))
    (hrow : (8 ∣ w ∧ 8 ≤ w) ∧ BitVec.ofNat 8 (rowOf i + 1) :: immBytes i = [op]) : LoadRule w i op := by
  obtain ⟨⟨hw, hpos⟩, hop⟩ := hrow
  refine ⟨opcode_of_rowOf hop, fun s => ⟨fun h => takesFault_of_exec (hexec s) (load_underflow h),
    fun pre a hlive => ?_⟩⟩
  have hload := load_live hw hlive
  refine ⟨fun hout => takesFault_of_exec (hexec s) (hload.trans (if_pos hout)), fun hin hcap => ?_⟩
  rw [← bytesOf_byte]
  refine pushes_of_exec (hexec s) ?_
  rw [hload, if_neg (not_le.2 hin)]
  exact pushN_after _ hlive hcap (by rw [length_bytesOf]; omega)

theorem storeRule_of_row (hexec : ∀ s, exec i s = finish s (storeByteAt w s))
    (hrow : 8 ∣ w ∧ BitVec.ofNat 8 (rowOf i + 1) :: immBytes i = [op]) : StoreRule w i op := by
  obtain ⟨hw, hop⟩ := hrow
  refine ⟨opcode_of_rowOf hop, fun s => ⟨fun h => takesFault_of_exec (hexec s) (storeByteAt_underflow h),
    fun pre v a hlive => ?_⟩⟩
  have hstore := storeByteAt_live hw hlive
  have hbyte (k : Nat) := State.storeByte_write (s.setSp (BitVec.ofNat 64 pre.length)) a.toNat k v
  refine ⟨fun hout => takesFault_of_exec (hexec s) (hstore.trans (if_pos hout)), fun hin => ⟨_, ?_, rfl,
    (hbyte a.toNat).trans (if_pos rfl), fun k hk => (hbyte k).trans (if_neg hk)⟩⟩
  rw [hexec, hstore, if_neg (not_le.2 hin)]
  rfl

end

/-! ### The statements -/

/-- Settles O34: the check of the immediate against the code, and then the push. -/
theorem pushCompletesWithItsImmediate : Obligations.PushCompletesWithItsImmediate :=
  ⟨pushRule_of_exec fun _ _ => rfl, pushRule_of_exec fun _ _ => rfl, pushRule_of_exec fun _ _ => rfl,
    pushRule_of_exec fun _ _ => rfl⟩

/-- Settles O35, from the rules of PUSH on entry (O34): rows 144 to 147 of the table read the immediates. -/
theorem pushStepCopiesCodeBytes : Obligations.PushStepCopiesCodeBytes := by
  obtain ⟨push8, push16, push32, push64⟩ := pushCompletesWithItsImmediate
  exact ⟨pushStepRule_of_pushRule (by decide) (decode_defaultOpmap_cons (k := 144) rfl) push8,
    pushStepRule_of_pushRule (by decide) (decode_defaultOpmap_cons (k := 145) rfl) push16,
    pushStepRule_of_pushRule (by decide) (decode_defaultOpmap_cons (k := 146) rfl) push32,
    pushStepRule_of_pushRule (by decide) (decode_defaultOpmap_cons (k := 147) rfl) push64⟩

/-- Settles O36: each instruction is a drop of its number of bytes. -/
theorem popDiscardsBytesUnread : Obligations.PopDiscardsBytesUnread :=
  ⟨popRule_of_row (fun _ => rfl) (by decide), popRule_of_row (fun _ => rfl) (by decide),
    popRule_of_row (fun _ => rfl) (by decide), popRule_of_row (fun _ => rfl) (by decide)⟩

/-- Settles O37: the address is checked once it is off the stack, and then the byte there is pushed. -/
theorem loadReadsOneStoreByte : Obligations.LoadReadsOneStoreByte :=
  ⟨loadRule_of_row (fun _ => rfl) (by decide), loadRule_of_row (fun _ => rfl) (by decide),
    loadRule_of_row (fun _ => rfl) (by decide), loadRule_of_row (fun _ => rfl) (by decide)⟩

/-- Settles O38: the address is checked once both operands are off the stack, and then one byte is written. -/
theorem storeWritesOneStoreByte : Obligations.StoreWritesOneStoreByte :=
  ⟨storeRule_of_row (fun _ => rfl) (by decide), storeRule_of_row (fun _ => rfl) (by decide),
    storeRule_of_row (fun _ => rfl) (by decide), storeRule_of_row (fun _ => rfl) (by decide)⟩

end Sys2Proof.Rules
end

section
/-! SUPPORT. HALT and SYSCALL (spec 46_system.md R410 to R415): the operands of a system call come off the stack as they
are drawn, the request is presented, and the host's answer is pushed in the step of SYSCALL or in one of its own. -/

namespace Sys2Proof.Machine

/-! ### The operands of a system call -/

/-- The last argument comes off first. -/
theorem popArgs_live {s : State} {pre : List Byte} {args : List Word} (h : s.live = pre ++ args.flatMap bytesOf) :
    popArgs args.length s = .ok (args, s.setSp (BitVec.ofNat 64 pre.length)) := by
  induction args using List.reverseRecOn generalizing s with
  | nil =>
    have hsp := State.sp_eq_of_live h
    rw [List.flatMap_nil, List.append_nil] at hsp
    rw [← hsp]
    rfl
  | append_singleton args a ih =>
    rw [List.flatMap_append, List.flatMap_singleton, ← List.append_assoc] at h
    rw [List.length_append, List.length_singleton]
    simp only [popArgs, popN_live (w := 64) (by decide) h, bind, Except.bind, ih (State.live_setSp h),
      State.setSp_setSp]

/-- Too few bytes for the arguments and the call number underflow on an argument, or on the number once the arguments
are off. -/
theorem popArgs_bind_popN_underflow {β : Type} {n : Nat} {s : State}
    {f : List Word × State → Word × State → Except Cause β} (h : s.sp.toNat < 8 * n + 8) :
    (popArgs n s >>= fun x => popN 64 x.2 >>= f x) = .error .stackUnderflow := by
  have anyState : StackClosed fun _ => True := .of_frame (fun _ _ => id) (fun _ _ => id)
  refine bind_raises (fun _ hc => popArgs_error hc) fun (args, t) hpop => ?_
  obtain ⟨-, -, hsp⟩ := anyState.popArgs n hpop trivial
  exact bind_error.2 (.inl (popN_underflow (by dsimp only; omega)))

/-! ### The host's answer -/

theorem live_hostCall (num : Word) (args : List Word) (s : State) : (hostCall num args s).live = s.live := rfl

theorem answer?_hostCall (num : Word) (args : List Word) (s : State) :
    (hostCall num args s).answer? = s.answers.lookup (s.requests.length + 1) := by
  rw [State.answer?, hostCall_answers, hostCall_requests, List.length_append, List.length_singleton]

theorem takeAnswer_of_none {s : State} (h : s.answer? = none) : takeAnswer s = .ok s := by
  simp only [takeAnswer, h]

/-- An answer with room for it is pushed, and the machine runs on with no request outstanding. -/
theorem takeAnswer_live {s : State} {r : Word} (hr : s.answer? = some r) (hroom : s.sp.toNat + 8 ≤ s.params.stackCap)
    (h64 : s.sp.toNat + 8 < 2 ^ 64) :
    ∃ t, takeAnswer s = .ok t ∧ t.live = s.live ++ bytesOf r ∧
      t = { s with sp := t.sp, stack := t.stack, status := .running, request := none } ∧
      ∀ k, k < s.sp.toNat ∨ s.sp.toNat + 8 ≤ k → t.stackByte k = s.stackByte k := by
  obtain ⟨t, hpush, hlive, -, hfields, hbytes⟩ := pushN_live r (s := s.resume) (pre := s.live) rfl
    (by rwa [State.length_live]) (by rwa [State.length_live])
  rw [State.length_live] at hbytes
  exact ⟨t, (takeAnswer_of_some hr).trans hpush, hlive, hfields, hbytes⟩

/-! ### SYSCALL -/

theorem syscall_underflow {s : State} (h : s.sp.toNat < 1) : syscall s = .error .stackUnderflow := by
  rw [syscall, pop1_underflow h]
  rfl

/-- With the count off, its check decides between the fault and the other operands. -/
theorem syscall_live {s : State} {below : List Byte} {argc : Byte} (h : s.live = below ++ [argc]) :
    syscall s = if 5 < argc.toNat then .error .invalidSyscallArity
      else popArgs argc.toNat (s.setSp (BitVec.ofNat 64 below.length)) >>= fun x =>
        popN 64 x.2 >>= fun y => takeAnswer (hostCall y.1 x.1 y.2) := by
  rw [syscall, pop1_live h]
  rfl

/-- With its operands on the stack a system call is the presented request, and then the host's answer. -/
theorem syscall_request {s : State} {pre : List Byte} {num : Word} {args : List Word}
    (h : s.live = pre ++ bytesOf num ++ args.flatMap bytesOf ++ [BitVec.ofNat 8 args.length])
    (hargs : args.length ≤ 5) :
    syscall s = takeAnswer (hostCall num args (s.setSp (BitVec.ofNat 64 pre.length))) := by
  have hcount : (BitVec.ofNat 8 args.length).toNat = args.length := by
    rw [BitVec.toNat_ofNat]
    omega
  have hpop := State.live_setSp h
  have hnum := State.live_setSp hpop
  rw [State.setSp_setSp] at hnum
  simp only [syscall_live h, hcount, if_neg (not_lt.2 hargs), popArgs_live hpop, bind, Except.bind,
    popN_live (w := 64) (by decide) hnum, State.setSp_setSp]

/-- An answer at hand is pushed in place of the operands, which took more room than it does. -/
theorem syscall_answered {s : State} {pre : List Byte} {num : Word} {args : List Word} {r : Word}
    (h : s.live = pre ++ bytesOf num ++ args.flatMap bytesOf ++ [BitVec.ofNat 8 args.length])
    (hargs : args.length ≤ 5) (hcap : s.sp.toNat ≤ s.params.stackCap)
    (hr : s.answers.lookup (s.requests.length + 1) = some r) :
    ∃ t, syscall s = .ok t ∧ t.live = pre ++ bytesOf r ∧
      t = { s with
        sp := t.sp
        stack := t.stack
        status := .running
        request := none
        requests := s.requests ++ [⟨num, args⟩] } ∧
      ∀ k, k < pre.length ∨ pre.length + 8 ≤ k → t.stackByte k = s.stackByte k := by
  have hoperands : s.live = pre ++ (bytesOf num ++ args.flatMap bytesOf ++ [BitVec.ofNat 8 args.length]) := by
    simpa only [List.append_assoc] using h
  have hsp := State.toNat_setSp_of_live hoperands
  have hroom : pre.length + 8 ≤ s.sp.toNat := by
    rw [State.sp_of_live hoperands]
    simp
  have h64 := s.sp.isLt
  obtain ⟨t, htake, hlive, hfields, hbytes⟩ :=
    takeAnswer_live ((answer?_hostCall num args (s.setSp (BitVec.ofNat 64 pre.length))).trans hr)
      (by rw [hostCall_sp, hsp]; exact hroom.trans hcap) (by rw [hostCall_sp, hsp]; omega)
  rw [live_hostCall, State.live_setSp hoperands] at hlive
  rw [hostCall_sp, hsp] at hbytes
  exact ⟨t, (syscall_request h hargs).trans htake, hlive, hfields, hbytes⟩

/-! ### The other instructions -/

/-- An instruction other than SYSCALL leaves the HOST port as it was and starts no waiting: HALT and a fault set another
status, and the others set none. -/
theorem exec_host_eq {i : Instr} (hi : i ≠ .syscall) {s t : State} (h : exec i s = .next t) :
    (t.requests = s.requests ∧ t.request = s.request) ∧ (t.status = s.status ∨ t.status ≠ .waitingHost) := by
  have hP : StackClosed fun u => (u.requests = s.requests ∧ u.request = s.request) ∧ u.status = s.status :=
    .of_frame (fun _ _ => id) (fun _ _ => id)
  rcases exec_keeps hP (fun _ => id) i (fun _ _ _ => id) (fun _ _ _ => id) (fun _ _ _ => id) (fun _ _ _ _ _ => id) h
    ⟨⟨rfl, rfl⟩, rfl⟩ with ⟨hport, hstatus⟩ | ⟨c, rfl⟩ | ⟨-, rfl⟩ | ⟨hsys, -⟩
  · exact ⟨hport, .inl hstatus⟩
  · exact ⟨⟨rfl, rfl⟩, .inr (by simp)⟩
  · exact ⟨⟨rfl, rfl⟩, .inr (by simp)⟩
  · exact absurd hsys hi

end Sys2Proof.Machine

namespace Sys2Proof.Rules

open Sys2Proof.Machine

/-- Settles O40: the count is checked once it is off, and then the other operands are popped and the request made of
them presented. -/
theorem syscallPresentsItsRequest : Obligations.SyscallPresentsItsRequest := by
  have hexec (s : State) : exec .syscall s = finish s (syscall s) := rfl
  refine ⟨opcode_of_rowOf (by decide), fun s => ⟨fun hempty => ?_, fun below argc hlive =>
    ⟨fun hmany => ?_, fun hfew hshort => ?_⟩, fun pre num args hlive hargs hcap => ?_⟩⟩
  · exact takesFault_of_exec (hexec s) (syscall_underflow hempty)
  · exact takesFault_of_exec (hexec s) ((syscall_live hlive).trans (if_pos hmany))
  · refine takesFault_of_exec (hexec s) ((syscall_live hlive).trans ((if_neg (not_lt.2 hfew)).trans ?_))
    exact popArgs_bind_popN_underflow (by rwa [State.toNat_setSp_of_live hlive])
  · refine ⟨fun r hr => ?_, fun hnone => ?_⟩
    · obtain ⟨t, ht, heffect⟩ := syscall_answered hlive hargs hcap hr
      exact ⟨t, by rw [hexec, ht, finish_ok], heffect⟩
    · have htake : takeAnswer (hostCall num args (s.setSp (BitVec.ofNat 64 pre.length))) = .ok _ :=
        takeAnswer_of_none ((answer?_hostCall ..).trans hnone)
      rw [hexec, syscall_request hlive hargs, htake, finish_ok]
      rfl

/-- Settles O41: the step of a waiting machine is the host's answer taken, if there is one. -/
theorem waitingMachineTakesTheAnswer : Obligations.WaitingMachineTakesTheAnswer := by
  intro s hwait hcmd
  refine ⟨fun hnone => ?_, fun r hr hroom h64 => ?_⟩
  · have hanswer : s.answer? = none := hnone
    simp only [step, hcmd, hwait, hanswer]
  · obtain ⟨t, htake, heffect⟩ := takeAnswer_live hr hroom (by omega)
    refine ⟨t, ?_, heffect⟩
    rw [step_answer hcmd hwait hr, ← takeAnswer_of_some hr, htake, finish_ok]

/-- Settles O55: what the other instructions do at the HOST port, read by its clauses. -/
theorem onlySyscallReachesTheHost : Obligations.OnlySyscallReachesTheHost := by
  intro i s t hi h
  obtain ⟨⟨hrequests, hrequest⟩, hstatus⟩ := exec_host_eq hi h
  refine ⟨hrequests, hrequest, fun hwait => ?_⟩
  rcases hstatus with hsame | hother
  · exact hsame ▸ hwait
  · exact absurd hwait hother

/-- Settles O39: row 170 of the table reads HALT, and the step is its one update from the state with pc past the
opcode. -/
theorem haltEndsTheRun : Obligations.HaltEndsTheRun := by
  refine ⟨opcode_of_rowOf (by decide), fun _ => rfl, fun s rest hrun hcmd hmap hcode => ?_⟩
  have hdecode : decode s.params.opmap (s.code.drop s.pc.toNat) = .ok (.halt, rest) := by
    rw [hmap, hcode]
    exact decode_defaultOpmap_cons (k := 170) rfl rest
  exact stepRunsTheDecodedInstruction s .halt rest hrun hcmd hdecode

end Sys2Proof.Rules
end

section
/-! SUPPORT. The causes of a fault (spec 60_exceptions.md R421 to R434): a state that an instruction leaves Faulted is
the one `raise` makes of the state on entry, with a cause that its body raised; and what each body raises. -/

namespace Sys2Proof.Machine

/-! ### Faulted states -/

/-- No update of an instruction sets Faulted: a body that raises nothing leaves another status. -/
theorem Shape.ok_not_faulted {body : State → Except Cause State} (hb : Shape body) {s t : State}
    (hs : s.status ≠ .faulted) (h : body s = .ok t) : t.status ≠ .faulted := by
  have hstack : StackClosed fun u => u.status ≠ .faulted := .of_frame (fun _ _ => id) (fun _ _ => id)
  have hclosed : UpdateClosed fun u => u.status ≠ .faulted :=
    { hstack with
      draw := fun _ => id
      setPc := fun _ _ => id
      setFp := fun _ _ => id
      write := fun _ _ _ _ => id }
  rcases hb.ok_keeps hclosed h hs with ht | rfl | hsys
  · exact ht
  · simp
  · exact hstack.syscall_keeps (fun _ _ _ _ => by simp) (fun _ _ => by simp) hsys hs

/-- An instruction that left Faulted took a fault that its body raised. -/
theorem Shape.faulted_iff_raised {body : State → Except Cause State} (hb : Shape body) {s t : State}
    (hs : s.status ≠ .faulted) (h : finish s (body s) = .next t) :
    t.status = .faulted ↔ ∃ c, body s = .error c ∧ t = raise c s := by
  constructor
  · intro ht
    rcases finish_next h with hok | hraised
    · exact absurd ht (hb.ok_not_faulted hs hok)
    · exact hraised
  · rintro ⟨c, -, rfl⟩
    rfl

/-! ### What may be raised, whatever `sp` is -/

/-- Whatever the computation raises may be raised. -/
def RaisesFaults {α : Type} (x : Except Cause α) : Prop := ∀ c, x = .error c → c.raisable

theorem RaisesFaults.ok {α : Type} (a : α) : RaisesFaults (.ok a : Except Cause α) := nofun

theorem RaisesFaults.error {α : Type} {c : Cause} (hc : c.raisable) : RaisesFaults (.error c : Except Cause α) := by
  rintro _ ⟨⟩
  exact hc

theorem RaisesFaults.bind {α β : Type} {x : Except Cause α} {f : α → Except Cause β} (hx : RaisesFaults x)
    (hf : ∀ a, RaisesFaults (f a)) : RaisesFaults (x >>= f) := fun c h => by
  rcases bind_error.1 h with h | ⟨a, -, h⟩
  · exact hx c h
  · exact hf a c h

theorem RaisesFaults.ite {α : Type} {p : Prop} [Decidable p] {x y : Except Cause α} (hx : RaisesFaults x)
    (hy : RaisesFaults y) : RaisesFaults (if p then x else y) := by
  split_ifs
  · exact hx
  · exact hy

/-- A computation that raises one cause only. -/
theorem RaisesFaults.of_eq {α : Type} {x : Except Cause α} {d : Cause} (hd : d.raisable)
    (h : ∀ c, x = .error c → c = d) : RaisesFaults x := fun c hc => h c hc ▸ hd

theorem raisable_stackUnderflow : Cause.stackUnderflow.raisable := ⟨nofun, nofun⟩
theorem raisable_stackOverflow : Cause.stackOverflow.raisable := ⟨nofun, nofun⟩
theorem raisable_divisionByZero : Cause.divisionByZero.raisable := ⟨nofun, nofun⟩
theorem raisable_invalidJumpTarget : Cause.invalidJumpTarget.raisable := ⟨nofun, nofun⟩
theorem raisable_outOfBounds : Cause.outOfBounds.raisable := ⟨nofun, nofun⟩

theorem pushN_raisesFaults {w : Nat} (v : BitVec w) (s : State) : RaisesFaults (pushN v s) :=
  .of_eq raisable_stackOverflow fun _ h => (pushN_error h).1

theorem push1_raisesFaults (b : Byte) (s : State) : RaisesFaults (push1 b s) :=
  .of_eq raisable_stackOverflow fun _ h => (push1_error h).1

theorem popN_raisesFaults (w : Nat) (s : State) : RaisesFaults (popN w s) :=
  .of_eq raisable_stackUnderflow fun _ h => (popN_error h).1

theorem pop1_raisesFaults (s : State) : RaisesFaults (pop1 s) :=
  .of_eq raisable_stackUnderflow fun _ h => (pop1_error h).1

theorem popPair_raisesFaults (w : Nat) (s : State) : RaisesFaults (popPair w s) :=
  .of_eq raisable_stackUnderflow fun _ => popPair_error

theorem dropBytes_raisesFaults (n : Nat) (s : State) : RaisesFaults (dropBytes n s) :=
  .of_eq raisable_stackUnderflow fun _ h => (dropBytes_error h).1

theorem popAddress_raisesFaults (w : Nat) (s : State) : RaisesFaults (popAddress w s) :=
  .of_eq raisable_stackUnderflow fun _ => popAddress_error

theorem popTarget_raisesFaults (w : Nat) (s : State) : RaisesFaults (popTarget w s) :=
  .of_eq raisable_stackUnderflow fun _ => popTarget_error

theorem jumpTo_raisesFaults (v : Word) (s : State) : RaisesFaults (jumpTo v s) :=
  .of_eq raisable_invalidJumpTarget fun _ h => (jumpTo_error h).1

theorem frameRead_raisesFaults (k : Int) (s : State) : RaisesFaults (frameRead k s) :=
  .of_eq raisable_stackUnderflow fun _ h => (frameRead_error h).1

theorem storeRead_raisesFaults (a : Nat) (s : State) : RaisesFaults (storeRead a s) :=
  .of_eq raisable_outOfBounds fun _ h => (storeRead_error h).1

theorem storeWrite_raisesFaults (a : Nat) (b : Byte) (s : State) : RaisesFaults (storeWrite a b s) :=
  .of_eq raisable_outOfBounds fun _ h => (storeWrite_error h).1

theorem popArgs_raisesFaults (n : Nat) (s : State) : RaisesFaults (popArgs n s) :=
  .of_eq raisable_stackUnderflow fun _ => popArgs_error

theorem takeAnswer_raisesFaults (s : State) : RaisesFaults (takeAnswer s) := by
  cases hr : s.answer? with
  | none => exact takeAnswer_of_none hr ▸ .ok s
  | some r => exact takeAnswer_of_some hr ▸ pushN_raisesFaults r s.resume

theorem binary_raisesFaults {w r : Nat} (f : BitVec w → BitVec w → BitVec r) (s : State) :
    RaisesFaults (binary w f s) :=
  (popPair_raisesFaults w s).bind fun _ => pushN_raisesFaults _ _

theorem arithFloat_raisesFaults (w : Nat) (fmt : FloatFormat) (op : FloatOp) (s : State) :
    RaisesFaults (arithFloat w fmt op s) :=
  (popPair_raisesFaults w s).bind fun _ => pushN_raisesFaults _ _

theorem ret_raisesFaults (w : Nat) (s : State) : RaisesFaults (ret w s) :=
  (popN_raisesFaults w s).bind fun _ => .ite (.error raisable_stackUnderflow) <|
    (popN_raisesFaults 64 _).bind fun _ => (popN_raisesFaults 64 _).bind fun _ =>
    (pop1_raisesFaults _).bind fun _ => (dropBytes_raisesFaults _ _).bind fun _ =>
    (pushN_raisesFaults _ _).bind fun _ => .ok _

theorem syscall_raisesFaults (s : State) : RaisesFaults (syscall s) :=
  (pop1_raisesFaults s).bind fun _ => .ite (.error ⟨nofun, nofun⟩) <|
    (popArgs_raisesFaults _ _).bind fun _ => (popN_raisesFaults 64 _).bind fun _ => takeAnswer_raisesFaults _

/-- Whatever a body raises may be raised, also where `sp` is above the capacity: unlike `Shape.error_raisable` this
allows an overflow to each push. -/
theorem Shape.raisesFaults {body : State → Except Cause State} (hb : Shape body) (s : State) :
    RaisesFaults (body s) := by
  cases hb with
  | binary f hr => exact binary_raisesFaults f s
  | compare rel hw => exact binary_raisesFaults _ s
  | unary f hr => exact (popN_raisesFaults _ s).bind fun _ => pushN_raisesFaults _ _
  | shift f =>
    exact (pop1_raisesFaults s).bind fun _ => (popN_raisesFaults _ _).bind fun _ => pushN_raisesFaults _ _
  | divideU f =>
    exact (popPair_raisesFaults _ s).bind fun _ => .ite (.error raisable_divisionByZero) (pushN_raisesFaults _ _)
  | divideS f =>
    exact (popPair_raisesFaults _ s).bind fun _ => .ite (.error raisable_divisionByZero) <|
      .ite (.error raisable_divisionByZero) (pushN_raisesFaults _ _)
  | arithF32 op =>
    rw [arithF32_eq]
    exact arithFloat_raisesFaults _ _ _ s
  | arithF64 op =>
    rw [arithF64_eq]
    exact arithFloat_raisesFaults _ _ _ s
  | compareF32 rel => exact compareF32_eq rel s ▸ binary_raisesFaults _ s
  | compareF64 rel => exact compareF64_eq rel s ▸ binary_raisesFaults _ s
  | jump w => exact (popTarget_raisesFaults w s).bind fun _ => jumpTo_raisesFaults _ _
  | jumpIf w =>
    exact (popTarget_raisesFaults w s).bind fun _ => (pop1_raisesFaults _).bind fun _ =>
      .ite (jumpTo_raisesFaults _ _) (.ok _)
  | call w =>
    exact (popTarget_raisesFaults w s).bind fun _ => (pushN_raisesFaults _ _).bind fun _ =>
      (pushN_raisesFaults _ _).bind fun _ => jumpTo_raisesFaults _ _
  | ret hw => exact ret_raisesFaults _ s
  | argCount => exact (frameRead_raisesFaults _ s).bind fun _ => push1_raisesFaults _ s
  | argByte =>
    exact (pop1_raisesFaults s).bind fun _ => (frameRead_raisesFaults _ _).bind fun _ => push1_raisesFaults _ _
  | pushImm imm => exact .ite (.error ⟨nofun, nofun⟩) (pushN_raisesFaults imm _)
  | dropBytes n => exact dropBytes_raisesFaults n s
  | load hw =>
    exact (popAddress_raisesFaults _ s).bind fun _ => (storeRead_raisesFaults _ _).bind fun _ => push1_raisesFaults _ _
  | storeByteAt w =>
    exact (popAddress_raisesFaults w s).bind fun _ => (pop1_raisesFaults _).bind fun _ => storeWrite_raisesFaults _ _ _
  | halt => exact .ok _
  | syscall => exact syscall_raisesFaults s

/-! ### The rows of the table -/

/-- Entered with `sp` within the capacity, the body raises only causes of the row. -/
def RaisesOnly (row : List Cause) (body : State → Except Cause State) : Prop :=
  ∀ (s : State) (c : Cause), s.sp.toNat ≤ s.params.stackCap → body s = .error c → c ∈ row

theorem RaisesOnly.singleton {a : Cause} {body : State → Except Cause State}
    (h : ∀ {s c}, s.sp.toNat ≤ s.params.stackCap → body s = .error c → c = a) : RaisesOnly [a] body :=
  fun _ _ hs he => List.mem_singleton.2 (h hs he)

theorem RaisesOnly.pair {a b : Cause} {body : State → Except Cause State}
    (h : ∀ {s c}, s.sp.toNat ≤ s.params.stackCap → body s = .error c → c = a ∨ c = b) : RaisesOnly [a, b] body :=
  fun _ _ hs he => List.mem_pair.2 (h hs he)

theorem RaisesOnly.triple {a b d : Cause} {body : State → Except Cause State}
    (h : ∀ {s c}, s.sp.toNat ≤ s.params.stackCap → body s = .error c → c = a ∨ c = b ∨ c = d) :
    RaisesOnly [a, b, d] body :=
  fun _ _ hs he => List.mem_cons.2 ((h hs he).imp_right List.mem_pair.2)

end Sys2Proof.Machine

namespace Sys2Proof.Rules

open Sys2Proof.Machine

/-- The body of an instruction raises only the causes of the instruction's row: the split of `exec_shape`, in which each
family keeps its name. -/
theorem exec_raisesOnly (i : Instr) :
    ∃ body, Shape body ∧ (∀ s, exec i s = finish s (body s)) ∧ RaisesOnly (causesOf i) body := by
  cases i with
  | addU8 | addI8 | addU16 | addI16 | addU32 | addI32 | addU64 | addI64 | subU8 | subI8 | subU16 | subI16
  | subU32 | subI32 | subU64 | subI64 | mulU8 | mulI8 | mulU16 | mulI16 | mulU32 | mulI32 | mulU64 | mulI64
  | logicalAnd | logicalOr | logicalXor | andU8 | andU16 | andU32 | andU64 | orU8 | orU16 | orU32 | orU64
  | xorU8 | xorU16 | xorU32 | xorU64 =>
    exact ⟨_, .binary _ (by decide), fun _ => rfl, .singleton (binary_error (by decide))⟩
  | addF | subF | mulF | divF => exact ⟨_, .arithF32 _, fun _ => rfl, .singleton arithF32_error⟩
  | addD | subD | mulD | divD => exact ⟨_, .arithF64 _, fun _ => rfl, .singleton arithF64_error⟩
  | divU8 | divU16 | divU32 | divU64 | modU8 | modU16 | modU32 | modU64 =>
    exact ⟨_, .divideU _, fun _ => rfl, .pair divideU_error⟩
  | divI8 | divI16 | divI32 | divI64 | modI8 | modI16 | modI32 | modI64 =>
    exact ⟨_, .divideS _, fun _ => rfl, .pair divideS_error⟩
  | eqU8 | eqI8 | eqU16 | eqI16 | eqU32 | eqI32 | eqU64 | eqI64 | neqU8 | neqI8 | neqU16 | neqI16 | neqU32
  | neqI32 | neqU64 | neqI64 | ltU8 | ltI8 | ltU16 | ltI16 | ltU32 | ltI32 | ltU64 | ltI64 | lteqU8 | lteqI8
  | lteqU16 | lteqI16 | lteqU32 | lteqI32 | lteqU64 | lteqI64 | gtU8 | gtI8 | gtU16 | gtI16 | gtU32 | gtI32
  | gtU64 | gtI64 | gteqU8 | gteqI8 | gteqU16 | gteqI16 | gteqU32 | gteqI32 | gteqU64 | gteqI64 =>
    exact ⟨_, .compare _ (by decide), fun _ => rfl, .singleton (compare_error (by decide))⟩
  | eqF | neqF | ltF | lteqF | gtF | gteqF =>
    exact ⟨_, .compareF32 _, fun _ => rfl, .singleton fun hs h => compare_error (by decide) hs (compareF32_eq _ _ ▸ h)⟩
  | eqD | neqD | ltD | lteqD | gtD | gteqD =>
    exact ⟨_, .compareF64 _, fun _ => rfl, .singleton fun hs h => compare_error (by decide) hs (compareF64_eq _ _ ▸ h)⟩
  | logicalNot | notU8 | notU16 | notU32 | notU64 =>
    exact ⟨_, .unary _ (by decide), fun _ => rfl, .singleton (unary_error (by decide))⟩
  | lshftU8 | lshftU16 | lshftU32 | lshftU64 | rshftU8 | rshftU16 | rshftU32 | rshftU64 =>
    exact ⟨_, .shift _, fun _ => rfl, .singleton shift_error⟩
  | jmpU8 | jmpU16 | jmpU32 | jmpU64 => exact ⟨_, .jump _, fun _ => rfl, .pair fun _ => jump_error⟩
  | jmpifU8 | jmpifU16 | jmpifU32 | jmpifU64 => exact ⟨_, .jumpIf _, fun _ => rfl, .pair fun _ => jumpIf_error⟩
  | pushU8 | pushU16 | pushU32 | pushU64 => exact ⟨_, .pushImm _, fun _ => rfl, .pair fun _ => pushImm_error⟩
  | popU8 | popU16 | popU32 | popU64 =>
    exact ⟨_, .dropBytes _, fun _ => rfl, .singleton fun _ h => (dropBytes_error h).1⟩
  | loadU8 | loadU16 | loadU32 | loadU64 =>
    exact ⟨_, .load (by decide), fun _ => rfl, .pair (load_error (by decide))⟩
  | storeU8 | storeU16 | storeU32 | storeU64 =>
    exact ⟨_, .storeByteAt _, fun _ => rfl, .pair fun _ => storeByteAt_error⟩
  | callU8 | callU16 | callU32 | callU64 =>
    exact ⟨_, .call _, fun _ => rfl, .triple fun _ => call_error⟩
  | retU8 | retU16 | retU32 | retU64 =>
    exact ⟨_, .ret (by decide), fun _ => rfl, .singleton (ret_error (by decide))⟩
  | argc => exact ⟨_, .argCount, fun _ => rfl, .pair fun _ => argCount_error⟩
  | arg => exact ⟨_, .argByte, fun _ => rfl, .singleton argByte_error⟩
  | halt => exact ⟨_, .halt, fun _ => rfl, nofun⟩
  | syscall => exact ⟨_, .syscall, fun _ => rfl, .pair syscall_error⟩

/-! ### The statements -/

/-- Settles O46: the cause is one that the instruction's body raised. -/
theorem faultCausesPerInstruction : Obligations.FaultCausesPerInstruction := by
  intro i s t hs hsp h ht
  obtain ⟨body, hbody, hexec, hrow⟩ := exec_raisesOnly i
  obtain ⟨c, hraised, rfl⟩ := (hbody.faulted_iff_raised hs (hexec s ▸ h)).1 ht
  exact hrow s c hsp hraised

/-- Settles O47: the state is the one `raise` makes of the state on entry, with a cause that a body raised. -/
theorem faultKeepsStoreCodeAndParameters : Obligations.FaultKeepsStoreCodeAndParameters := by
  intro i s t hs h ht
  obtain ⟨body, hbody, hexec⟩ := exec_shape i
  obtain ⟨c, hraised, rfl⟩ := (hbody.faulted_iff_raised hs (hexec s ▸ h)).1 ht
  exact ⟨raise_faultedFrom c s, hbody.raisesFaults s c hraised⟩

end Sys2Proof.Rules
end

section
/-! SUPPORT. The commands of the CTRL port (spec 70_reset_and_hazards.md R460, R463): which command is well sized, what
a step does with a well-sized one, and what a reset and a run make of the state. -/

namespace Sys2Proof.Machine

/-! ### Well-sized commands -/

@[simp] theorem sizeOk_iff (n : Nat) : sizeOk n = true ↔ n < 2 ^ 64 := decide_eq_true_iff

theorem wellSized_reset_iff (stackCap storeCap : Nat) (code : List Byte) :
    (Command.reset stackCap storeCap code).wellSized = true ↔
      stackCap < 2 ^ 64 ∧ storeCap < 2 ^ 64 ∧ code.length < 2 ^ 64 := by
  simp only [Command.wellSized, Bool.and_eq_true, sizeOk_iff, and_assoc]

theorem wellSized_run_iff (code : Option (List Byte)) (startPc : Word) :
    (Command.run code startPc).wellSized = true ↔ ∀ c, code = some c → c.length < 2 ^ 64 := by
  cases code with
  | none => simp [Command.wellSized]
  | some code => simp only [Command.wellSized, sizeOk_iff, Option.some.injEq, forall_eq']

/-! ### Steps that take a well-sized command -/

section
variable {s : State} {rest : List Command}

theorem step_reset {stackCap storeCap : Nat} {code : List Byte}
    (hc : s.commands = .reset stackCap storeCap code :: rest)
    (hw : (Command.reset stackCap storeCap code).wellSized = true) :
    step s = .next (resetMachine stackCap storeCap code { s with commands := rest }) := by
  rw [step_command hc, takeCommand, if_pos hw]

theorem step_run {code : Option (List Byte)} {startPc : Word} (hc : s.commands = .run code startPc :: rest)
    (hw : (Command.run code startPc).wellSized = true) :
    step s = .next (runMachine code startPc { s with commands := rest }) := by
  rw [step_command hc, takeCommand, if_pos hw]

end

/-! ### What a reset and a run leave -/

section
variable (s : State)

theorem resetMachine_stackByte (stackCap storeCap : Nat) (code : List Byte) (k : Nat) :
    (resetMachine stackCap storeCap code s).stackByte k = Config.stackInit s.draws k := rfl

theorem resetMachine_storeByte (stackCap storeCap : Nat) (code : List Byte) (a : Nat) :
    (resetMachine stackCap storeCap code s).storeByte a = Config.storeInit s.draws a := rfl

end

theorem State.acceptsRun_iff (s : State) : s.acceptsRun = true ↔ s.status = .idle ∨ s.status = .halted :=
  decide_eq_true_iff

/-- The statuses that refuse a run are the other three of the five. -/
theorem State.not_acceptsRun_iff (s : State) :
    ¬ s.acceptsRun = true ↔ s.status = .running ∨ s.status = .waitingHost ∨ s.status = .faulted := by
  rw [State.acceptsRun_iff]
  cases s.status <;> simp

theorem runMachine_of_accepts {s : State} (h : s.acceptsRun = true) (code : Option (List Byte)) (startPc : Word) :
    runMachine code startPc s =
      { s with code := code.getD s.code, pc := startPc, cause := .none, status := .running } := if_pos h

theorem runMachine_of_refuses {s : State} (h : ¬ s.acceptsRun = true) (code : Option (List Byte)) (startPc : Word) :
    runMachine code startPc s = s := if_neg h

/-! ### The statements -/

/-- Settles O59: the step is `resetMachine`, which asks nothing of the status; the memories it leaves list no byte,
so every byte is read from the draw it takes. -/
theorem resetCommandStartsANewLife : Obligations.ResetCommandStartsANewLife := by
  intro s stackCap storeCap code rest hc hstack hstore hcode
  have hstep := step_reset hc ((wellSized_reset_iff ..).2 ⟨hstack, hstore, hcode⟩)
  exact ⟨_, hstep, rfl, rfl, rfl, rfl, rfl, rfl, rfl, rfl, resetMachine_stackByte _ _ _ _,
    resetMachine_storeByte _ _ _ _, rfl, rfl⟩

/-- Settles O60: the step is `runMachine`, and that the command no longer waits does not bear on whether the status
accepts it. -/
theorem runCommandStartsARun : Obligations.RunCommandStartsARun := by
  intro s code startPc rest hc hcode
  have hstep := step_run hc ((wellSized_run_iff ..).2 hcode)
  constructor
  · intro hs
    have haccepts : { s with commands := rest }.acceptsRun = true := s.acceptsRun_iff.2 hs
    rw [hstep, runMachine_of_accepts haccepts]
  · intro hs
    have hrefuses : ¬ { s with commands := rest }.acceptsRun = true := s.not_acceptsRun_iff.2 hs
    rw [hstep, runMachine_of_refuses hrefuses]

end Sys2Proof.Machine
end
